-- ==== Sys2Proof/Config.lean ====
section
/-! DEFINITION. What the manual fixes for every part (the sizes of its stores) and what it leaves
free: the random source and the orders of events of one instant. -/

namespace Sys2Proof

/-- Draw number `n` of the random source before it is reduced to its range (R165). The manual gives the range of
each draw and no value: a FREE VALUE (log 5, DESIGN CHOICE for the form). -/
opaque Config.randomDraw : Nat → Nat

/-- Which of several events due at one instant the part takes first, choice number `n`, before it is reduced to
the number of those events. The manual gives both orders: a FREE VALUE (log 4, DESIGN CHOICE for the form). -/
opaque Config.eventChoice : Nat → Nat

/-- How many of the grants and backoff completions due when a silence turns the medium IDLE are taken before the verdict
of the copy that the silence ends, order number `n`. The manual gives both orders of a verdict and a check (R118): a
FREE VALUE (log 21, DESIGN CHOICE for the form). -/
opaque Config.checksFirst : Nat → Nat

/-- Entries of the Combining Table (R54). -/
abbrev Config.entries : Nat := 8
/-- Slots of the Body Store (R96). -/
abbrev Config.slots : Nat := 32
/-- Keys the Delivery History holds at most (R93). -/
abbrev Config.historyKeys : Nat := 32
/-- Messages the Inbox holds at most (R102). -/
abbrev Config.inboxMessages : Nat := 12
/-- Items the Relay Schedule holds at most (R109). -/
abbrev Config.relayItems : Nat := 15
/-- Items the Outbox holds at most (R144). -/
abbrev Config.originItems : Nat := 4
/-- Reports the Report Queue holds at most (R155). -/
abbrev Config.reports : Nat := 8
/-- Header bits, each sent in three passes (R5). -/
abbrev Config.headerBits : Nat := 64
/-- Header symbols of a copy (R5). -/
abbrev Config.headerSymbols : Nat := 192
/-- Coded positions of the longest body, N for L = 48 (R11). -/
abbrev Config.bodyPositions : Nat := 808
/-- The erasure run that ends a copy (R41, R45). -/
abbrev Config.erasureLimit : Nat := 24
/-- Copies whose confidences an entry merges at most (R60). -/
abbrev Config.mergeLimit : Nat := 15
/-- Relayer ids an entry records at most (R59). -/
abbrev Config.relayerIds : Nat := 4
/-- REFCLK periods of a millisecond (R163). -/
abbrev Config.periodsPerMilli : Nat := 16000
/-- REFCLK periods of a trellis step (R80). -/
abbrev Config.periodsPerStep : Nat := 16
/-- Ticks of darkness that raise a silence event, 6 U (R24). -/
abbrev Config.silenceTicks : Nat := 96
/-- Ticks of a backoff slot, 4 U (R130). -/
abbrev Config.slotTicks : Nat := 64
/-- Ticks of the blinding tail, 2 U (R29). -/
abbrev Config.blindingTicks : Nat := 32
/-- The longest delay of any deadline, in milliseconds (R163). -/
abbrev Config.longestDelay : Nat := 5100
/-- Parameter bytes of the longest request (R173). -/
abbrev Config.maxParameters : Nat := 58

end Sys2Proof
end

