-- ==== Sys2Proof/Word.lean ====
section
/-! DEFINITION. The word types of the AK-412: what the manual treats as bits. -/

namespace Sys2Proof

/-- A byte of a header, a body or the host port (12_formats.md). -/
abbrev Byte := BitVec 8

/-- The 4-bit session tag, 0 to 15 (R164). -/
abbrev Session := BitVec 4

/-- The 12-bit sequence number, 0 to 4095, which wraps to 0 (R164). -/
abbrev Sequence := BitVec 12

/-- A value of the 32-bit millisecond timer, which wraps to 0 (R163). -/
abbrev Millis := BitVec 32

/-- The 16-bit body check (R9). -/
abbrev BodyCheck := BitVec 16

/-- One of the part's 16-bit counters (R166). -/
abbrev Count16 := BitVec 16

end Sys2Proof
end

