-- ==== Sys2Proof/Syntax.lean ====
section
/-! DEFINITION. The commands the part takes: one constructor of `Instr` for each row of the opcode table. The table
gives no operand fields; an operand stands here where the row's rule needs one (INVENTORY.md, Instructions). -/

namespace Sys2Proof

/-- The 13 parameter bytes of a CONFIGURE, at their offsets 0 to 12 (R181). -/
structure ConfigureParams where
  stationId : Byte
  groupCount : Byte
  group1 : Byte
  group2 : Byte
  group3 : Byte
  group4 : Byte
  unitCode : Byte
  relayEnable : Byte
  threshold : Byte
  holdOffWindow : Byte
  defaultHops : Byte
  windowCode : Byte
  deferralLimit : Byte
  deriving DecidableEq, Repr

/-- The parameters of a SUBMIT: six fixed bytes at offsets 0 to 5, then the payload (R181). -/
structure SubmitParams where
  handle : Byte
  kind : Byte
  destination : Byte
  urgent : Byte
  repeats : Byte
  hops : Byte
  payload : List Byte
  deriving DecidableEq, Repr

/-- The commands, in the opcode table's order. -/
inductive Instr where
  /-- POWER_ON (R170). -/
  | powerOn
  /-- RSTN_RESET: RSTn goes low (R170). -/
  | rstnReset
  /-- RISING_EDGE: the third consecutive high sample (R19). -/
  | risingEdge
  /-- FALLING_EDGE: the third consecutive low sample ends a mark of `length` ticks (R20, log 6). -/
  | fallingEdge (length : BitVec 8)
  /-- SILENCE: the space timer reaches its 96th tick (R24). -/
  | silence
  /-- BLINDING_END: the blinding deadline is reached (R31). -/
  | blindingEnd
  /-- SLOT_END: the slot timer reaches 64 (R130). -/
  | slotEnd
  /-- BACKOFF_COMPLETION: backoff count 0 on an IDLE medium (R133). -/
  | backoffCompletion
  /-- HAND_OVER: the Line Interface takes or refuses the copy (R135). -/
  | handOver
  /-- TRANSMISSION_COMPLETE: the tick after the end marker (R29). -/
  | transmissionComplete
  /-- GRANT: the arbiter grants a READY item (R127). -/
  | grant
  /-- DECODER_TAKE: the Decoder takes the head of the Decode Queue (R78). -/
  | decoderTake
  /-- DECODE_COMPLETION: the decode's completion time (R82). -/
  | decodeCompletion
  /-- ENTRY_DEADLINE of the Combining Table entry `entry` (R64). -/
  | entryDeadline (entry : Nat)
  /-- RELAY_HOLD_OFF_EXPIRY of the relay item at index `item` (R115). -/
  | relayHoldOffExpiry (item : Nat)
  /-- ORIGIN_HOLD_OFF_EXPIRY of the origin item at Outbox index `item` (R151). -/
  | originHoldOffExpiry (item : Nat)
  /-- ECHO_DEADLINE of the origin item at Outbox index `item` (R153). -/
  | echoDeadline (item : Nat)
  /-- LISTEN_EXPIRY: the listen deadline is reached (R162). -/
  | listenExpiry
  /-- CSN_FALL: a transaction opens (R171). -/
  | csnFall
  /-- CSN_RISE: the transaction closes (R171). -/
  | csnRise
  /-- CONFIGURE, as its last byte completes it (R161). -/
  | configure (params : ConfigureParams)
  /-- SUBMIT, as its last byte completes it (R147). -/
  | submit (params : SubmitParams)
  /-- COLLECT_MESSAGE, as its length byte completes it (R104). -/
  | collectMessage
  /-- COLLECT_REPORT, as its length byte completes it (R156). -/
  | collectReport
  /-- READ_STATUS, as its length byte completes it (R177). -/
  | readStatus
  /-- READ_COUNTERS with its clear option (R167). -/
  | readCounters (clear : Byte)
  /-- CLEAR_EVENTS with its mask (R168). -/
  | clearEvents (mask : Byte)
  /-- RESTART, as its length byte completes it (R169). -/
  | restart
  /-- MALFORMED_REQUEST: the whole request's bytes (R174). -/
  | malformedRequest (request : List Byte)
  /-- COLLECT_MESSAGE_FINAL_BYTE (R104). -/
  | collectMessageFinalByte
  /-- COLLECT_REPORT_FINAL_BYTE (R156). -/
  | collectReportFinalByte
  /-- READ_COUNTERS_FINAL_BYTE (R167). -/
  | readCountersFinalByte
  /-- RSTN_RELEASE: RSTn returns high (R170). -/
  | rstnRelease
  /-- BYTE_COMPLETE: the eighth rising SCK edge of a byte, `mosi` the byte shifted in (R172). -/
  | byteComplete (mosi : Byte)
  deriving DecidableEq, Repr

end Sys2Proof
end

