-- ==== Sys2Proof/Decode.lean ====
section
/-! DEFINITION. The commands that a word spells by the opcode table's bits. -/

namespace Sys2Proof

/-- The command a word spells. The opcode table gives no row any bits: its rows are events and host requests, not
words. So no word spells a command (log 11). -/
def decodeTableWord (_nbits _w : Nat) : Option Instr := none

end Sys2Proof
end

