-- ==== Sys2Proof/Machine/State.lean ====
section
/-! DEFINITION. The state of the AK-412, block by block, as plain data, and the state after power-on. -/

namespace Sys2Proof.Machine

/-! ## Messages and copies (01_messages_copies_and_codes.md) -/

/-- The key of a message: origin, session, sequence (R1). -/
structure Key where
  origin : Byte
  session : Session
  sequence : Sequence
  deriving DecidableEq, Repr

/-- How a destination is read (R2). -/
inductive DestKind where
  | station
  | group
  | all
  deriving DecidableEq, Repr

/-- The identity fields of a message beside its key (R8, R54). -/
structure Identity where
  destination : Byte
  kind : DestKind
  urgent : Bool
  length : Nat
  deriving DecidableEq, Repr

/-- The field values of an accepted header, or of a header to be sent (R2, R3). The version is always 3. -/
structure Header where
  key : Key
  identity : Identity
  relayer : Byte
  hops : Nat
  deriving DecidableEq, Repr

/-- The record the Copy Assembler hands on at the end of a copy (R48). -/
structure CopyRecord where
  header : Header
  confidences : List Int
  deriving DecidableEq, Repr

/-! ## Pins -/

/-- The levels of the input pins (00_scope.md, Pin list). REFCLK is the clock of the step. -/
structure Pins where
  demodIn : Bool
  sck : Bool
  mosi : Bool
  csn : Bool
  rstn : Bool
  deriving DecidableEq, Repr

/-! ## Station Control (10_station_life_configuration_listening_and_restart.md) -/

/-- The station states (R159). -/
inductive StationState where
  | unconfigured
  | listening
  | running
  deriving DecidableEq, Repr

/-- The configuration record's nine fields (R160). -/
structure ConfigRecord where
  stationId : Byte
  groups : List Byte
  unitCode : Nat
  relayEnable : Bool
  threshold : Nat
  holdOffWindow : Nat
  defaultHops : Nat
  windowCode : Nat
  deferralLimit : Nat
  deriving DecidableEq, Repr

/-- Station Control, but for its counters and flags. `milliPhase` counts REFCLK periods toward the next
millisecond; `held` says that RSTn holds the part in reset (R170). -/
structure Station where
  state : StationState
  config : Option ConfigRecord
  session : Session
  nextSequence : Sequence
  listenDeadline : Option Millis
  milliTimer : Millis
  milliPhase : Nat
  held : Bool
  deriving DecidableEq, Repr

/-- The names of the 17 counters, in the order of the READ_COUNTERS response (R166, R182). -/
inductive Counter where
  | copiesAccepted
  | headersRejected
  | copiesTruncated
  | duplicates
  | echoes
  | selfConflicts
  | keyConflicts
  | entriesEvicted
  | entriesExpired
  | decodesFailed
  | messagesDelivered
  | inboxOverflows
  | relaysSent
  | relaysSuppressed
  | relaysRefused
  | originsSent
  | transmissionsAbandoned
  deriving DecidableEq, Repr

/-- The 17 counters (R166). -/
structure Counters where
  copiesAccepted : Count16
  headersRejected : Count16
  copiesTruncated : Count16
  duplicates : Count16
  echoes : Count16
  selfConflicts : Count16
  keyConflicts : Count16
  entriesEvicted : Count16
  entriesExpired : Count16
  decodesFailed : Count16
  messagesDelivered : Count16
  inboxOverflows : Count16
  relaysSent : Count16
  relaysSuppressed : Count16
  relaysRefused : Count16
  originsSent : Count16
  transmissionsAbandoned : Count16
  deriving DecidableEq, Repr

/-- All 17 counters 0 (R166). -/
def Counters.zero : Counters :=
  ⟨0, 0, 0, 0, 0, 0, 0, 0, 0, 0, 0, 0, 0, 0, 0, 0, 0⟩

/-- The four event flags (R168). -/
structure EventFlags where
  inboxOverflow : Bool
  selfConflict : Bool
  keyConflict : Bool
  scheduleFull : Bool
  deriving DecidableEq, Repr

/-! ## Line Interface (02_the_light_line.md) -/

/-- The receiver phases (R18). -/
inductive ReceiverPhase where
  | off
  | dark
  | lit
  | blind
  deriving DecidableEq, Repr

/-- The medium state (R18, R25). -/
inductive Medium where
  | idle
  | busy
  deriving DecidableEq, Repr

/-- The Line Interface. `tick` is the tick time, counted from the first tick of the tick base; `tickPhase` counts
REFCLK periods into the present tick (R17). `runCount` is the pending run, 3 only while an accepted edge waits to be
taken (log 10); `runFirst` the tick the run began; `markStamp` the time stamp of the present mark's rising edge. -/
structure Line where
  phase : ReceiverPhase
  runCount : Nat
  runFirst : Nat
  markTimer : Nat
  markStamp : Nat
  spaceTimer : Nat
  silenceRaised : Bool
  medium : Medium
  blindingDeadline : Option Nat
  tick : Nat
  tickPhase : Nat
  ledOut : Bool
  txact : Bool
  deriving DecidableEq, Repr

/-- The line events handed to the Copy Assembler (R23). -/
inductive LineEvent where
  | dataSymbol (soft : Nat)
  | erasure
  | endMarker
  | startMarker
  | silence
  deriving DecidableEq, Repr

/-! ## Copy Assembler (03_copy_assembly_and_verdicts.md) -/

/-- The assembler's phases (R36). -/
inductive AssemblerPhase where
  | hunt
  | header
  | body
  | tail
  deriving DecidableEq, Repr

/-- The Copy Assembler with its Copy Buffer (R36). -/
structure Assembler where
  phase : AssemblerPhase
  headerSums : List Int
  headerIndex : Nat
  decided : Option Header
  body : List Int
  bodyIndex : Nat
  erasureRun : Nat
  deriving DecidableEq, Repr

/-- The verdicts (R49). `matched` carries the index of the entry that holds the key. -/
inductive Verdict where
  | echo
  | selfConflict
  | duplicate
  | keyConflict
  | matched (entry : Nat)
  | new
  deriving DecidableEq, Repr

/-! ## Combining Table (04_the_combining_table.md) -/

/-- The states of an occupied entry (R54). A FREE entry is `none` in the table. -/
inductive EntryState where
  | waiting
  | queued
  | decoding
  deriving DecidableEq, Repr

/-- An occupied entry of the Combining Table (R54). -/
structure Entry where
  state : EntryState
  recheck : Bool
  final : Bool
  key : Key
  identity : Identity
  accumulators : List Int
  combined : Nat
  heard : Nat
  relayers : List Byte
  bestHops : Nat
  deadline : Millis
  deriving DecidableEq, Repr

/-! ## Decoder (05_the_decoder.md) -/

/-- A decode in progress (R77). `completion` is the completion time in REFCLK periods. -/
structure Decode where
  entry : Nat
  snapshot : List Int
  length : Nat
  identityBlock : List Byte
  unresolved : Nat
  slot : Nat
  completion : Nat
  deriving DecidableEq, Repr

/-! ## Body Store and Inbox (06_delivery_history_body_store_and_inbox.md) -/

/-- A Body Store slot: its payload (the length is the payload's) and its holders (R96). -/
structure Slot where
  payload : List Byte
  byInbox : Bool
  byRelay : Bool
  byOrigin : Bool
  byDecoder : Bool
  deriving DecidableEq, Repr

/-- The parties that may hold a slot (R96). -/
inductive Holder where
  | inbox
  | relay
  | origin
  | decoder
  deriving DecidableEq, Repr

/-- An Inbox message (R102). Its payload stands in its slot. -/
structure Message where
  key : Key
  identity : Identity
  hops : Nat
  combined : Nat
  heard : Nat
  relayers : List Byte
  unresolved : Nat
  slot : Nat
  deriving DecidableEq, Repr

/-! ## Relay Schedule (07_relay_scheduling_and_suppression.md) -/

/-- The states of a relay item, with the ready time from READY onward (R108). -/
inductive RelayState where
  | holding
  | ready (since : Millis)
  | contending (since : Millis)
  | sending (since : Millis)
  deriving DecidableEq, Repr

/-- A relay item (R108). Its index is its place in the schedule. -/
structure RelayItem where
  key : Key
  identity : Identity
  hops : Nat
  slot : Nat
  state : RelayState
  holdOffDeadline : Millis
  heard : Nat
  deferrals : Nat
  deriving DecidableEq, Repr

/-! ## Outbox and Report Queue (09_originated_messages_and_reports.md) -/

/-- The states of an origin item, with what is present in each (R145, R148). -/
inductive OriginState where
  | held
  | ready (since : Millis)
  | holding (deadline : Millis)
  | contending (since : Millis)
  | sending (since : Millis)
  | echoWait (deadline : Millis)
  | reportPending
  deriving DecidableEq, Repr

/-- An origin item (R145). -/
structure OriginItem where
  handle : Byte
  key : Key
  identity : Identity
  hops : Nat
  slot : Nat
  repeatsRequested : Nat
  repeatsSent : Nat
  repeatsEnded : Nat
  echoes : Nat
  state : OriginState
  deferrals : Nat
  deriving DecidableEq, Repr

/-- How an origin item ended (R154). -/
inductive ReportOutcome where
  | echoed
  | silent
  | unsent
  deriving DecidableEq, Repr

/-- A report (R154). -/
structure Report where
  handle : Byte
  sequence : Sequence
  repeatsRequested : Nat
  repeatsSent : Nat
  echoes : Nat
  outcome : ReportOutcome
  deriving DecidableEq, Repr

/-! ## Transmit Controller (08_transmit_control_and_medium_access.md) -/

/-- The granted item: a relay item by its Relay Schedule index, or an origin item by its present Outbox index
(R126, R144). -/
inductive Granted where
  | relay (index : Nat)
  | origin (index : Nat)
  deriving DecidableEq, Repr

/-- The element position of a copy being sent (R126): the model holds the element being sent until its last tick, and
adds `finished` for the tick after the end marker (R29; log 22). -/
inductive Element where
  | startMarker
  | headerSymbol (h : Nat)
  | bodySymbol (j : Nat)
  | endMarker
  | finished
  deriving DecidableEq, Repr

/-- The hand-over (R126): PENDING, or ACCEPTED with the element being sent and the ticks of it already past. When the
position moves on to the next element is the model's choice (log 22). -/
inductive HandOver where
  | pending
  | accepted (element : Element) (elementTick : Nat)
  deriving DecidableEq, Repr

/-- The controller state with what is present in each (R126). -/
inductive Controller where
  | idle
  | backoff (item : Granted) (count : Nat) (slotTimer : Nat)
  | sending (item : Granted) (header : List Byte) (check : BodyCheck) (handOver : HandOver)
  deriving DecidableEq, Repr

/-- The Transmit Controller (R126). -/
structure Transmit where
  controller : Controller
  view : Medium
  deriving DecidableEq, Repr

/-! ## Host Port (11_the_host_port.md) -/

/-- The transaction phases (R171). -/
inductive PortPhase where
  | idle
  | request
  | response
  | trailing
  deriving DecidableEq, Repr

/-- What the final byte of a response commits (R176). -/
inductive Commit where
  | nothing
  | inboxHead
  | reportHead
  | clearCounters
  deriving DecidableEq, Repr

/-- A response fixed at the take: all its bytes, status and length first, and what its final byte commits (R176).
`present` says that the head it carries has not been removed by a RESTART since the take (R104, R156, log 15). -/
structure Response where
  bytes : List Byte
  commit : Commit
  present : Bool
  deriving DecidableEq, Repr

/-- The Host Port (R171). `shift` holds the bits of the current byte; `byteDone` a byte completed at the pins whose
event waits to be taken (log 10); `csnSeen` and `sckSeen` the levels last seen (log 9). `miso` is `none` while MISO is
not driven (R172). -/
structure Port where
  phase : PortPhase
  bitCount : BitVec 3
  shift : Byte
  request : List Byte
  response : Option Response
  position : Nat
  byteDone : Option Byte
  csnSeen : Bool
  sckSeen : Bool
  miso : Option Bool
  attn : Bool
  deriving DecidableEq, Repr

/-! ## The whole part -/

/-- The state of the AK-412, the queue of waiting commands and the world at its pins. -/
@[ext]
structure State where
  pending : List Instr
  pins : Pins
  inputs : List Pins
  refclk : Nat
  drawCount : Nat
  choiceCount : Nat
  orderCount : Nat
  station : Station
  counters : Counters
  flags : EventFlags
  line : Line
  assembler : Assembler
  table : List (Option Entry)
  decodeQueue : List Nat
  decoder : Option Decode
  history : List Key
  slots : List Slot
  inbox : List Message
  relays : List (Option RelayItem)
  outbox : List OriginItem
  reports : List Report
  transmit : Transmit
  port : Port
  deriving DecidableEq, Repr

/-- The faults. The manual names no event that stops the part, so there is none: no meaning faults, and no
constructor stands here. (A type without constructors is safe: nothing can be built of it.) -/
inductive Fault where
  deriving DecidableEq, Repr

/-- The refusals. -/
inductive Refusal where
  /-- Raised by an arm of `exec` whose command has no meaning yet; no arm raises it now. Safe: the model stops. -/
  | notModelled (mnemonic : String)
  deriving DecidableEq, Repr

/-! ## Reset -/

/-- A free slot (R96). -/
def Slot.free : Slot := ⟨[], false, false, false, false⟩

/-- The Line Interface after power-on and RSTn (R18, R32). Fields without a reset value in the manual: log 14. -/
def Line.reset : Line where
  phase := .off
  runCount := 0
  runFirst := 0
  markTimer := 0
  markStamp := 0
  spaceTimer := 0
  silenceRaised := false
  medium := .busy
  blindingDeadline := none
  tick := 0
  tickPhase := 0
  ledOut := false
  txact := false

/-- The Copy Assembler after power-on, RSTn and RESTART (R36, R53). -/
def Assembler.reset : Assembler where
  phase := .hunt
  headerSums := List.replicate Config.headerBits 0
  headerIndex := 0
  decided := none
  body := List.replicate Config.bodyPositions 0
  bodyIndex := 0
  erasureRun := 0

/-- The Host Port at power-on and while RSTn is low, with CSn and SCK as the pins show them (R171). -/
def Port.reset (pins : Pins) : Port where
  phase := .idle
  bitCount := 0
  shift := 0
  request := []
  response := none
  position := 0
  byteDone := none
  csnSeen := pins.csn
  sckSeen := pins.sck
  miso := none
  attn := false

/-- Station Control after power-on and RSTn, with the session tag drawn as `session` (R164, R170). -/
def Station.reset (session : Session) (held : Bool) : Station where
  state := .unconfigured
  config := none
  session := session
  nextSequence := 0
  listenDeadline := none
  milliTimer := 0
  milliPhase := 0
  held := held

/-- The pins right after reset: line dark, host port not selected, RSTn high (log 9). -/
def Pins.atReset : Pins where
  demodIn := false
  sck := false
  mosi := false
  csn := true
  rstn := true

/-- The part after power-on: every block in its reset state, the session tag drawn from the random source
(R170, R165). -/
def State.reset : State where
  pending := []
  pins := Pins.atReset
  inputs := []
  refclk := 0
  drawCount := 1
  choiceCount := 0
  orderCount := 0
  station := Station.reset (BitVec.ofNat 4 (Config.randomDraw 0)) false
  counters := Counters.zero
  flags := ⟨false, false, false, false⟩
  line := Line.reset
  assembler := Assembler.reset
  table := List.replicate Config.entries none
  decodeQueue := []
  decoder := none
  history := []
  slots := List.replicate Config.slots Slot.free
  inbox := []
  relays := List.replicate Config.relayItems none
  outbox := []
  reports := []
  transmit := ⟨.idle, .busy⟩
  port := Port.reset Pins.atReset

end Sys2Proof.Machine
end

