-- ==== Sys2Proof/Machine/Codes.lean ====
section
/-! DEFINITION. The codes of a copy: header layout and check, body check, convolutional code, interleaving and the
trellis decode (01_messages_copies_and_codes.md, 12_formats.md). -/

namespace Sys2Proof.Machine

/-! ## Bits and bytes -/

/-- The bits of a byte, most significant first, as the checks take them (R4, R9). -/
def msbFirst (b : Byte) : List Bool :=
  [b.getLsbD 7, b.getLsbD 6, b.getLsbD 5, b.getLsbD 4, b.getLsbD 3, b.getLsbD 2, b.getLsbD 1, b.getLsbD 0]

/-- The bits of a byte, least significant first, as they travel on the line (R5, R10). -/
def lsbFirst (b : Byte) : List Bool :=
  [b.getLsbD 0, b.getLsbD 1, b.getLsbD 2, b.getLsbD 3, b.getLsbD 4, b.getLsbD 5, b.getLsbD 6, b.getLsbD 7]

/-- The byte whose bits, least significant first, are those of the list; a missing bit is 0. -/
def byteOfBits (bits : List Bool) : Byte :=
  BitVec.ofNat 8 (bits.foldr (fun b acc => b.toNat + 2 * acc) 0)

/-- The first `n` bytes that a string of bits spells, each least significant bit first (R5, R10). -/
def bytesOfBits : Nat → List Bool → List Byte
  | 0, _ => []
  | n + 1, bits => byteOfBits (bits.take 8) :: bytesOfBits n (bits.drop 8)

/-! ## The two checks -/

/-- One data bit into the header check's register (R4). -/
def crc8Bit (reg : Byte) (bit : Bool) : Byte :=
  if reg.msb == bit then reg <<< 1 else (reg <<< 1) ^^^ 0x07#8

/-- The header check: CRC-8, preset 00h (R4). -/
def crc8 (bytes : List Byte) : Byte :=
  (bytes.flatMap msbFirst).foldl crc8Bit 0x00#8

/-- One data bit into the body check's register (R9). -/
def crc16Bit (reg : BodyCheck) (bit : Bool) : BodyCheck :=
  if reg.msb == bit then reg <<< 1 else (reg <<< 1) ^^^ 0x1021#16

/-- The CRC-16 of the body check, preset FFFFh (R9). -/
def crc16 (bytes : List Byte) : BodyCheck :=
  (bytes.flatMap msbFirst).foldl crc16Bit 0xFFFF#16

/-! ## The header -/

/-- The code of a destination kind (R180, R182). -/
def DestKind.code : DestKind → BitVec 2
  | .station => 0
  | .group => 1
  | .all => 2

/-- The destination kind a two-bit code names; the fourth code is invalid (R2, R180). -/
def DestKind.ofCode (c : BitVec 2) : Option DestKind :=
  if c = 0 then some .station else if c = 1 then some .group else if c = 2 then some .all else none

/-- Header byte 3: sequence, bits 0 to 7 (R180). -/
def sequenceLow (k : Key) : Byte := k.sequence.extractLsb' 0 8

/-- Header byte 4: sequence bits 8 to 11 and session (R180). -/
def sequenceHighSession (k : Key) : Byte := k.session ++ k.sequence.extractLsb' 8 4

/-- Header byte 5: length and destination kind (R180). -/
def lengthKind (i : Identity) : Byte := i.kind.code ++ BitVec.ofNat 6 i.length

/-- Header byte 6: hops left, urgent and version 3 (R180). -/
def hopsUrgentVersion (i : Identity) (hops : Nat) : Byte :=
  3#4 ++ (BitVec.ofBool i.urgent ++ BitVec.ofNat 3 hops)

/-- Header bytes 0 to 6 (R180). -/
def headerFields (h : Header) : List Byte :=
  [h.key.origin, h.identity.destination, h.relayer, sequenceLow h.key, sequenceHighSession h.key,
    lengthKind h.identity, hopsUrgentVersion h.identity h.hops]

/-- The eight bytes of a header as it is sent, with its check (R3, R180). -/
def headerBytes (h : Header) : List Byte :=
  headerFields h ++ [crc8 (headerFields h)]

/-- Header bit i: bit i mod 8 of byte i div 8 (R5). -/
def headerBit (bytes : List Byte) (i : Nat) : Bool :=
  (bytes.getD (i / 8) 0).getLsbD (i % 8)

/-- A station id or relayer the header may carry: 1 to 254 (R2). -/
def validId (b : Byte) : Bool := b != 0 && b != 255

/-- The acceptance of a decided header: conditions 2 to 7 of R7, and the fields it then fixes. -/
def acceptHeader (bytes : List Byte) : Option Header :=
  match bytes with
  | [b0, b1, b2, b3, b4, b5, b6, b7] =>
    let length := (b5.extractLsb' 0 6).toNat
    match DestKind.ofCode (b5.extractLsb' 6 2) with
    | none => none
    | some kind =>
      if crc8 [b0, b1, b2, b3, b4, b5, b6] = b7 ∧ b6.extractLsb' 4 4 = 3#4 ∧ 1 ≤ length ∧ length ≤ 48
          ∧ validId b0 ∧ validId b2 then
        some
          { key := ⟨b0, b4.extractLsb' 4 4, b4.extractLsb' 0 4 ++ b3⟩
            identity := ⟨b1, kind, b6.getLsbD 3, length⟩
            relayer := b2
            hops := (b6.extractLsb' 0 3).toNat }
      else none
  | _ => none

/-- The decision of the 64 header bits from their sums; a sum of 0 leaves its bit undecided (R6). -/
def decideBits (sums : List Int) : Option (List Bool) :=
  if sums.all (fun v => v != 0) then some (sums.map (fun v => decide (0 < v))) else none

/-- The header decision: R6 over the sums, then the acceptance of R7. -/
def decideHeader (sums : List Int) : Option Header :=
  match decideBits sums with
  | some bits => acceptHeader (bytesOfBits 8 bits)
  | none => none

/-- The identity block of a message: header bytes 0, 1, 3, 4, 5, and byte 6 with its hops-left bits 0 (R8, R180). -/
def identityBlock (k : Key) (i : Identity) : List Byte :=
  [k.origin, i.destination, sequenceLow k, sequenceHighSession k, lengthKind i, hopsUrgentVersion i 0]

/-- The body check of a payload under its identity block (R9). -/
def bodyCheck (block payload : List Byte) : BodyCheck := crc16 (block ++ payload)

/-! ## The body code -/

/-- N, the coded symbols of a body of length L (R11). -/
def codedLength (l : Nat) : Nat := 16 * l + 40

/-- M = N / 8, the symbols of an interleaving round (R12). -/
def roundLength (l : Nat) : Nat := 2 * l + 5

/-- The information sequence of a body: payload, check high byte, check low byte, four zero bits (R10). -/
def informationBits (payload : List Byte) (check : BodyCheck) : List Bool :=
  (payload ++ [check.extractLsb' 8 8, check.extractLsb' 0 8]).flatMap lsbFirst ++ List.replicate 4 false

/-- The coded symbol o0 of a step from a state with input x (R11). -/
def outZero (state : Nat) (x : Bool) : Bool := x ^^ (state.testBit 0 ^^ state.testBit 3)

/-- The coded symbol o1 of a step from a state with input x (R11). -/
def outOne (state : Nat) (x : Bool) : Bool := x ^^ (state.testBit 1 ^^ (state.testBit 2 ^^ state.testBit 3))

/-- The encoder's state after a step (R11). -/
def nextState (state : Nat) (x : Bool) : Nat := (2 * state + x.toNat) % 16

/-- The convolutional encoder of R11, from a given state. -/
def encodeFrom (state : Nat) : List Bool → List Bool
  | [] => []
  | x :: xs => outZero state x :: outOne state x :: encodeFrom (nextState state x) xs

/-- The coded sequence of an information sequence: the encoder from state 0 (R11). -/
def encodeBits (bits : List Bool) : List Bool := encodeFrom 0 bits

/-- Information bit t - d, a bit of negative index taken as 0 (R138). -/
def bitBack (bits : List Bool) (t d : Nat) : Bool := if d ≤ t then bits.getD (t - d) false else false

/-- Coded symbol c[k], formed from five information bits as the copy is sent (R138). -/
def codedSymbol (bits : List Bool) (k : Nat) : Bool :=
  let t := k / 2
  if k % 2 = 0 then bitBack bits t 0 ^^ (bitBack bits t 1 ^^ bitBack bits t 4)
  else bitBack bits t 0 ^^ (bitBack bits t 2 ^^ (bitBack bits t 3 ^^ bitBack bits t 4))

/-- The coded position that body symbol j carries (R12). -/
def codedPosition (m j : Nat) : Nat := 8 * (j % m) + j / m

/-- The body symbol that carries coded position k (R12). -/
def linePosition (m k : Nat) : Nat := k % 8 * m + k / 8

/-! ## The trellis decode -/

/-- A path kept at a state: its total and its input bits, latest first (R13). -/
structure Survivor where
  total : Int
  path : List Bool
  deriving DecidableEq, Repr

/-- +1 for an emitted 1, -1 for an emitted 0 (R13). -/
def signOf (b : Bool) : Int := if b then 1 else -1

/-- The score of the branch from a state with input x over the two values of a step (R13). -/
def branchScore (a0 a1 : Int) (state : Nat) (x : Bool) : Int :=
  a0 * signOf (outZero state x) + a1 * signOf (outOne state x)

/-- A predecessor's path extended by its branch (R13). -/
def extendPath (a0 a1 : Int) (state : Nat) (x : Bool) (p : Option Survivor) : Option Survivor :=
  p.map fun q => ⟨q.total + branchScore a0 a1 state x, x :: q.path⟩

/-- The survivor of two extensions, the lower-numbered predecessor's first: the higher total, and the first at a
tie (R13). -/
def surviving (low high : Option Survivor) : Option Survivor :=
  match low, high with
  | some p, some q => if p.total < q.total then some q else some p
  | some p, none => some p
  | none, q => q

/-- The survivors of the 16 states after one step (R13). -/
def trellisStep (a0 a1 : Int) (paths : List (Option Survivor)) : List (Option Survivor) :=
  (List.range 16).map fun s =>
    let x := s % 2 == 1
    surviving (extendPath a0 a1 (s / 2) x (paths.getD (s / 2) none))
      (extendPath a0 a1 (s / 2 + 8) x (paths.getD (s / 2 + 8) none))

/-- The survivors after the steps of a snapshot, two values a step (R13). -/
def trellis : List Int → List (Option Survivor) → List (Option Survivor)
  | a0 :: a1 :: rest, paths => trellis rest (trellisStep a0 a1 paths)
  | _, paths => paths

/-- Before step 0, state 0 holds the empty path and the others hold none (R13). -/
def trellisStart : List (Option Survivor) := some ⟨0, []⟩ :: List.replicate 15 none

/-- The decoded path: the survivor at state 0 after the last step (R13). -/
def decodedPath (snapshot : List Int) : List Bool :=
  match (trellis snapshot trellisStart).getD 0 none with
  | some q => q.path.reverse
  | none => []

/-- The decoded payload and the decoded check of a snapshot (R10, R13, R14). -/
def decodeBody (length : Nat) (snapshot : List Int) : List Byte × BodyCheck :=
  let bytes := bytesOfBits (length + 2) (decodedPath snapshot)
  (bytes.take length, bytes.getD length 0 ++ bytes.getD (length + 1) 0)

/-- The payload of a decode that succeeds, or nothing where it fails (R14, R82). -/
def decodeOutcome (length : Nat) (block : List Byte) (snapshot : List Int) : Option (List Byte) :=
  let body := decodeBody length snapshot
  if bodyCheck block body.1 = body.2 then some body.1 else none

/-! ## The copy on the line -/

/-- What a transmission is made of: header bytes, payload, body check (R137, R138). -/
structure TxCopy where
  header : List Byte
  payload : List Byte
  check : BodyCheck
  deriving DecidableEq, Repr

/-- The value that header symbol h carries (R5, R137). -/
def TxCopy.headerValue (c : TxCopy) (h : Nat) : Bool := headerBit c.header (h % Config.headerBits)

/-- The value that body symbol j carries (R12, R138). -/
def TxCopy.bodyValue (c : TxCopy) (j : Nat) : Bool :=
  codedSymbol (informationBits c.payload c.check) (codedPosition (roundLength c.payload.length) j)

/-- Ticks of a symbol's mark: 1 U for a 0, 2 U for a 1 (R15, R28). -/
def symbolMark (v : Bool) : Nat := if v then 32 else 16

/-- Ticks of an element's mark (R28). -/
def TxCopy.markTicks (c : TxCopy) : Element → Nat
  | .startMarker => 64
  | .headerSymbol h => symbolMark (c.headerValue h)
  | .bodySymbol j => symbolMark (c.bodyValue j)
  | .endMarker => 48
  | .finished => 0

/-- Ticks of the space after an element's mark (R28). -/
def spaceTicks : Element → Nat
  | .startMarker => 16
  | .headerSymbol _ => 16
  | .bodySymbol _ => 16
  | .endMarker => 0
  | .finished => 0

/-- Ticks of a whole element (R28). -/
def TxCopy.elementTicks (c : TxCopy) (e : Element) : Nat := c.markTicks e + spaceTicks e

/-- The element that follows: start marker, 192 header symbols, N body symbols, end marker (R139). -/
def TxCopy.nextElement (c : TxCopy) : Element → Element
  | .startMarker => .headerSymbol 0
  | .headerSymbol h => if h + 1 < Config.headerSymbols then .headerSymbol (h + 1) else .bodySymbol 0
  | .bodySymbol j => if j + 1 < codedLength c.payload.length then .bodySymbol (j + 1) else .endMarker
  | .endMarker => .finished
  | .finished => .finished

/-- Elements of a copy, and one more for the tick after the last (R139: 16L + 234 in all). -/
def TxCopy.elementBound (c : TxCopy) : Nat := 16 * c.payload.length + 235

/-- Where the stream stands `k` ticks on: the element and the ticks of it already past. It stays at `finished`. -/
def TxCopy.run (c : TxCopy) : Nat → Element → Nat → Nat → Element × Nat
  | 0, e, t, _ => (e, t)
  | n + 1, e, t, k =>
    if e = .finished then (.finished, 0)
    else if t + k < c.elementTicks e then (e, t + k)
    else c.run n (c.nextElement e) 0 (t + k - c.elementTicks e)

/-- Ticks from a position of the stream to the tick after the end marker (R29). -/
def TxCopy.remaining (c : TxCopy) : Nat → Element → Nat → Nat
  | 0, _, _ => 0
  | n + 1, e, t =>
    if e = .finished then 0 else c.elementTicks e - t + c.remaining n (c.nextElement e) 0

/-- Ticks of a whole copy, from the first lit tick to the last (R16). -/
def TxCopy.airtime (c : TxCopy) : Nat := c.remaining c.elementBound .startMarker 0

/-- LED_OUT at a tick of the stream: in a mark, two ticks lit then two dark (R27). -/
def TxCopy.led (c : TxCopy) (e : Element) (t : Nat) : Bool :=
  decide (t < c.markTicks e) && decide (t % 4 < 2)

end Sys2Proof.Machine
end

