-- ==== Sys2Proof/Machine/Flags.lean ====
section
/-! DEFINITION. The counters, the event flags and the attention line: every status computation the host sees
(R166 to R168, R178, R182). -/

namespace Sys2Proof.Machine

/-- An increment of a 16-bit counter: at 65535 it stays (R166). -/
def saturate (c : Count16) : Count16 := if c = 0xFFFF#16 then c else c + 1

/-- The value of a counter by its name (R166). -/
def Counters.get (cs : Counters) : Counter → Count16
  | .copiesAccepted => cs.copiesAccepted
  | .headersRejected => cs.headersRejected
  | .copiesTruncated => cs.copiesTruncated
  | .duplicates => cs.duplicates
  | .echoes => cs.echoes
  | .selfConflicts => cs.selfConflicts
  | .keyConflicts => cs.keyConflicts
  | .entriesEvicted => cs.entriesEvicted
  | .entriesExpired => cs.entriesExpired
  | .decodesFailed => cs.decodesFailed
  | .messagesDelivered => cs.messagesDelivered
  | .inboxOverflows => cs.inboxOverflows
  | .relaysSent => cs.relaysSent
  | .relaysSuppressed => cs.relaysSuppressed
  | .relaysRefused => cs.relaysRefused
  | .originsSent => cs.originsSent
  | .transmissionsAbandoned => cs.transmissionsAbandoned

/-- One counter incremented, the others as they were (R166). -/
def Counters.bump (cs : Counters) : Counter → Counters
  | .copiesAccepted => { cs with copiesAccepted := saturate cs.copiesAccepted }
  | .headersRejected => { cs with headersRejected := saturate cs.headersRejected }
  | .copiesTruncated => { cs with copiesTruncated := saturate cs.copiesTruncated }
  | .duplicates => { cs with duplicates := saturate cs.duplicates }
  | .echoes => { cs with echoes := saturate cs.echoes }
  | .selfConflicts => { cs with selfConflicts := saturate cs.selfConflicts }
  | .keyConflicts => { cs with keyConflicts := saturate cs.keyConflicts }
  | .entriesEvicted => { cs with entriesEvicted := saturate cs.entriesEvicted }
  | .entriesExpired => { cs with entriesExpired := saturate cs.entriesExpired }
  | .decodesFailed => { cs with decodesFailed := saturate cs.decodesFailed }
  | .messagesDelivered => { cs with messagesDelivered := saturate cs.messagesDelivered }
  | .inboxOverflows => { cs with inboxOverflows := saturate cs.inboxOverflows }
  | .relaysSent => { cs with relaysSent := saturate cs.relaysSent }
  | .relaysSuppressed => { cs with relaysSuppressed := saturate cs.relaysSuppressed }
  | .relaysRefused => { cs with relaysRefused := saturate cs.relaysRefused }
  | .originsSent => { cs with originsSent := saturate cs.originsSent }
  | .transmissionsAbandoned => { cs with transmissionsAbandoned := saturate cs.transmissionsAbandoned }

/-- The counters in the order of the READ_COUNTERS response (R182). -/
def Counter.inOrder : List Counter :=
  [.copiesAccepted, .headersRejected, .copiesTruncated, .duplicates, .echoes, .selfConflicts, .keyConflicts,
    .entriesEvicted, .entriesExpired, .decodesFailed, .messagesDelivered, .inboxOverflows, .relaysSent,
    .relaysSuppressed, .relaysRefused, .originsSent, .transmissionsAbandoned]

/-- Increment a counter of the part (R166). -/
def count (c : Counter) (s : State) : State := { s with counters := s.counters.bump c }

/-- Set INBOX_OVERFLOW (R103, R168). -/
def flagInboxOverflow (s : State) : State := { s with flags := { s.flags with inboxOverflow := true } }

/-- Set SELF_CONFLICT (R50, R168). -/
def flagSelfConflict (s : State) : State := { s with flags := { s.flags with selfConflict := true } }

/-- Set KEY_CONFLICT (R50, R168). -/
def flagKeyConflict (s : State) : State := { s with flags := { s.flags with keyConflict := true } }

/-- Set SCHEDULE_FULL (R111, R168). -/
def flagScheduleFull (s : State) : State := { s with flags := { s.flags with scheduleFull := true } }

/-- The flags named by a mask cleared, the others as they were (R168, R182). -/
def EventFlags.clear (f : EventFlags) (mask : Byte) : EventFlags where
  inboxOverflow := f.inboxOverflow && !mask.getLsbD 0
  selfConflict := f.selfConflict && !mask.getLsbD 1
  keyConflict := f.keyConflict && !mask.getLsbD 2
  scheduleFull := f.scheduleFull && !mask.getLsbD 3

/-- The flags as the status record shows them (R182). -/
def EventFlags.byte (f : EventFlags) : Byte :=
  0#4 ++ (BitVec.ofBool f.scheduleFull ++ (BitVec.ofBool f.keyConflict
    ++ (BitVec.ofBool f.selfConflict ++ BitVec.ofBool f.inboxOverflow)))

/-- Whether any event flag is set (R178). -/
def EventFlags.any (f : EventFlags) : Bool :=
  f.inboxOverflow || f.selfConflict || f.keyConflict || f.scheduleFull

/-- The level ATTN has: high while a message or a report waits or a flag is set (R178). -/
def attnLevel (s : State) : Bool := !s.inbox.isEmpty || !s.reports.isEmpty || s.flags.any

/-- ATTN brought to its level, at the event that changes it (R178). -/
def settleAttn (s : State) : State := { s with port := { s.port with attn := attnLevel s } }

end Sys2Proof.Machine
end

