-- ==== Sys2Proof/Machine/Ops.lean ====
section
/-! DEFINITION. The operations the blocks share: configuration, random draws, deadlines, choice of a first, and the
Body Store. -/

namespace Sys2Proof.Machine

/-! ## Configuration -/

/-- Stands where no configuration is; every block that would read it is idle then (R160, log 13). -/
def ConfigRecord.blank : ConfigRecord := ⟨0, [], 0, false, 0, 0, 0, 0, 0⟩

/-- The configuration record the blocks read (R160). -/
def State.cfg (s : State) : ConfigRecord := s.station.config.getD ConfigRecord.blank

/-- The collection window in milliseconds (R160). -/
def ConfigRecord.windowMs (c : ConfigRecord) : Nat := 10 * c.windowCode

/-- W', the hold-off window for an item (R113). -/
def ConfigRecord.holdOffRange (c : ConfigRecord) (urgent : Bool) : Nat :=
  if urgent then max 1 (c.holdOffWindow / 4) else c.holdOffWindow

/-- The number of values of a backoff draw: 0 to 3 slots if urgent, 0 to 7 if not (R129). -/
def backoffRange (urgent : Bool) : Nat := if urgent then 4 else 8

/-! ## Random draws -/

/-- The next draw over 0 to `range` - 1, a free value (R165, log 5). -/
def State.nextDraw (s : State) (range : Nat) : Nat := Config.randomDraw s.drawCount % range

/-- The state once a draw has been made (R165, log 5). -/
def State.drawn (s : State) : State := { s with drawCount := s.drawCount + 1 }

/-! ## Deadlines and ready times -/

/-- A deadline `delay` milliseconds ahead, modulo 2^32 (R163). -/
def deadlineAfter (now : Millis) (delay : Nat) : Millis := now + BitVec.ofNat 32 delay

/-- The distance of a deadline ahead of the timer, modulo 2^32 (R163). -/
def distanceAhead (now deadline : Millis) : Nat := (deadline - now).toNat

/-- The distance of a reached deadline or a ready time behind the timer, modulo 2^32 (R163). -/
def distanceBehind (now past : Millis) : Nat := (now - past).toNat

/-- Whether a deadline is still to come: no deadline is set more than 5,100 ms ahead (R163, log 17). -/
def toCome (now deadline : Millis) : Bool :=
  decide (0 < distanceAhead now deadline) && decide (distanceAhead now deadline ≤ Config.longestDelay)

/-- The place of a deadline in the ordering of R163: smaller is earlier. -/
def deadlineRank (now deadline : Millis) : Int :=
  if toCome now deadline then (distanceAhead now deadline : Int) else -(distanceBehind now deadline : Int)

/-- The first of a list in a given order, an earlier place winning a tie. -/
def firstBy {α : Type} (before : α → α → Bool) : List α → Option α
  | [] => none
  | a :: rest =>
    match firstBy before rest with
    | none => some a
    | some b => if before b a then some b else some a

/-! ## Body Store -/

/-- A slot is free while it has no holder (R96). -/
def Slot.isFree (sl : Slot) : Bool := !sl.byInbox && !sl.byRelay && !sl.byOrigin && !sl.byDecoder

/-- A hold placed or lifted (R98, R99). -/
def Slot.setHold (sl : Slot) (h : Holder) (on : Bool) : Slot :=
  match h with
  | .inbox => { sl with byInbox := on }
  | .relay => { sl with byRelay := on }
  | .origin => { sl with byOrigin := on }
  | .decoder => { sl with byDecoder := on }

/-- A slot without a holder loses its payload (R99). -/
def Slot.settle (sl : Slot) : Slot := if sl.isFree then Slot.free else sl

/-- The lowest-numbered free slot (R97). With none free, which R97 shows cannot arise where a slot is asked for, the
number is past the last slot and what is done to it has no effect (log 13). -/
def lowestFree (slots : List Slot) : Nat := (slots.findIdx? Slot.isFree).getD slots.length

/-- Slots in use (R96). -/
def slotsInUse (slots : List Slot) : Nat := slots.countP (fun sl => !sl.isFree)

/-- A hold added to a slot (R98). -/
def holdSlot (i : Nat) (h : Holder) (s : State) : State :=
  { s with slots := s.slots.modify i (fun sl => sl.setHold h true) }

/-- A holder lets go of a slot, which is free once the last has let go (R99). -/
def releaseSlot (i : Nat) (h : Holder) (s : State) : State :=
  { s with slots := s.slots.modify i (fun sl => (sl.setHold h false).settle) }

/-- The payload written into a slot, once (R98). -/
def writeSlot (i : Nat) (payload : List Byte) (s : State) : State :=
  { s with slots := s.slots.modify i (fun sl => { sl with payload := payload }) }

/-- The payload in a slot (R96). -/
def payloadAt (s : State) (i : Nat) : List Byte := (s.slots.getD i Slot.free).payload

/-! ## Items -/

/-- The relay item at an index of the Relay Schedule (R109). -/
def relayAt (s : State) (i : Nat) : Option RelayItem := s.relays.getD i none

/-- The Combining Table entry at an index; `none` is FREE (R54). -/
def entryAt (s : State) (i : Nat) : Option Entry := s.table.getD i none

/-- A relay item changed in place. -/
def updateRelay (i : Nat) (f : RelayItem → RelayItem) (s : State) : State :=
  { s with relays := s.relays.modify i (Option.map f) }

/-- An origin item changed in place. -/
def updateOrigin (i : Nat) (f : OriginItem → OriginItem) (s : State) : State :=
  { s with outbox := s.outbox.modify i f }

/-- An entry put at an index of the Combining Table. -/
def putEntry (i : Nat) (e : Option Entry) (s : State) : State := { s with table := s.table.set i e }

/-- The Transmit Controller's state replaced. -/
def setController (c : Controller) (s : State) : State :=
  { s with transmit := { s.transmit with controller := c } }

/-- The Line Interface replaced. -/
def setLine (l : Line) (s : State) : State := { s with line := l }

/-- The Copy Assembler replaced. -/
def setAssembler (a : Assembler) (s : State) : State := { s with assembler := a }

/-- The Host Port replaced. -/
def setPort (p : Port) (s : State) : State := { s with port := p }

/-- A command's effect on the part when RSTn does not hold it in reset; while it does, no block acts (R170).
ATTN follows at the same event (R178). -/
def live (effect : State → State) (s : State) : State :=
  if s.station.held then s else settleAttn (effect s)

end Sys2Proof.Machine
end

