-- ==== Sys2Proof/Machine/Operands.lean ====
section
/-! DEFINITION. The requests of the host port: their codes, lengths and parameters, read from and written as bytes
(R173, R174, R181). -/

namespace Sys2Proof.Machine

/-- A complete request, by its name, with its parameters; or malformed, with all its bytes (R174, R181). -/
inductive Request where
  | configure (params : ConfigureParams)
  | submit (params : SubmitParams)
  | collectMessage
  | collectReport
  | readStatus
  | readCounters (clear : Byte)
  | clearEvents (mask : Byte)
  | restart
  | malformed (bytes : List Byte)
  deriving DecidableEq, Repr

/-- The 13 parameter bytes of a CONFIGURE in order (R181). -/
def configureBytes (p : ConfigureParams) : List Byte :=
  [p.stationId, p.groupCount, p.group1, p.group2, p.group3, p.group4, p.unitCode, p.relayEnable, p.threshold,
    p.holdOffWindow, p.defaultHops, p.windowCode, p.deferralLimit]

/-- The parameter bytes of a SUBMIT in order (R181). -/
def submitBytes (p : SubmitParams) : List Byte :=
  [p.handle, p.kind, p.destination, p.urgent, p.repeats, p.hops] ++ p.payload

/-- A request as the host sends it: code, parameter length P, parameters (R173, R181). -/
def Request.bytes : Request → List Byte
  | .configure p => 0x11#8 :: 13#8 :: configureBytes p
  | .submit p => 0x12#8 :: BitVec.ofNat 8 (6 + p.payload.length) :: submitBytes p
  | .collectMessage => [0x21#8, 0#8]
  | .collectReport => [0x22#8, 0#8]
  | .readStatus => [0x31#8, 0#8]
  | .readCounters c => [0x32#8, 1#8, c]
  | .clearEvents m => [0x33#8, 1#8, m]
  | .restart => [0x3F#8, 0#8]
  | .malformed bs => bs

/-- Whether the bytes received are a complete request: at the length byte for P of 0 or above 58, at the P-th parameter
byte otherwise (R173). -/
def requestComplete (bytes : List Byte) : Bool :=
  match bytes with
  | _ :: p :: params =>
    if Config.maxParameters < p.toNat then params.isEmpty else params.length == p.toNat
  | _ => false

/-- The parameters of a well-formed request by its code, if the length fits the code (R174, R181). -/
def parseParameters (code : Byte) (params : List Byte) : Option Request :=
  if code = 0x11#8 then
    match params with
    | [b0, b1, b2, b3, b4, b5, b6, b7, b8, b9, b10, b11, b12] =>
      some (.configure ⟨b0, b1, b2, b3, b4, b5, b6, b7, b8, b9, b10, b11, b12⟩)
    | _ => none
  else if code = 0x12#8 then
    match params with
    | b0 :: b1 :: b2 :: b3 :: b4 :: b5 :: payload => some (.submit ⟨b0, b1, b2, b3, b4, b5, payload⟩)
    | _ => none
  else if code = 0x21#8 then
    match params with
    | [] => some .collectMessage
    | _ => none
  else if code = 0x22#8 then
    match params with
    | [] => some .collectReport
    | _ => none
  else if code = 0x31#8 then
    match params with
    | [] => some .readStatus
    | _ => none
  else if code = 0x32#8 then
    match params with
    | [c] => some (.readCounters c)
    | _ => none
  else if code = 0x33#8 then
    match params with
    | [m] => some (.clearEvents m)
    | _ => none
  else if code = 0x3F#8 then
    match params with
    | [] => some .restart
    | _ => none
  else none

/-- What a complete request is, by the framing check of R174. -/
def parseRequest (bytes : List Byte) : Request :=
  match bytes with
  | code :: p :: params =>
    if Config.maxParameters < p.toNat ∨ params.length ≠ p.toNat then .malformed bytes
    else (parseParameters code params).getD (.malformed bytes)
  | _ => .malformed bytes

/-! ## CONFIGURE -/

/-- The group list of a CONFIGURE: the first group count bytes (R181). -/
def configureGroups (p : ConfigureParams) : List Byte :=
  [p.group1, p.group2, p.group3, p.group4].take p.groupCount.toNat

/-- Whether every field of a CONFIGURE passes its check (R160, R161, R181). -/
def configureValid (p : ConfigureParams) : Bool :=
  validId p.stationId
    && decide (p.groupCount.toNat ≤ 4)
    && (configureGroups p).all (fun g => validId g && g != p.stationId)
    && decide (configureGroups p).Nodup
    && decide (p.unitCode.toNat ≤ 2)
    && decide (p.relayEnable.toNat ≤ 1)
    && decide (2 ≤ p.threshold.toNat) && decide (p.threshold.toNat ≤ 8)
    && decide (1 ≤ p.holdOffWindow.toNat)
    && decide (1 ≤ p.defaultHops.toNat) && decide (p.defaultHops.toNat ≤ 7)
    && decide (1 ≤ p.windowCode.toNat)
    && decide (4 ≤ p.deferralLimit.toNat) && decide (p.deferralLimit.toNat ≤ 15)

/-- The configuration record an accepted CONFIGURE writes (R160, R161). -/
def configureRecord (p : ConfigureParams) : ConfigRecord where
  stationId := p.stationId
  groups := configureGroups p
  unitCode := p.unitCode.toNat
  relayEnable := p.relayEnable == 1#8
  threshold := p.threshold.toNat
  holdOffWindow := p.holdOffWindow.toNat
  defaultHops := p.defaultHops.toNat
  windowCode := p.windowCode.toNat
  deferralLimit := p.deferralLimit.toNat

/-! ## SUBMIT -/

/-- The destination kind a SUBMIT names; a byte of 3 or above is invalid (R181). -/
def submitKind (p : SubmitParams) : Option DestKind :=
  if p.kind = 0 then some .station else if p.kind = 1 then some .group
  else if p.kind = 2 then some .all else none

/-- Whether the parameters of a SUBMIT are valid for a station of the given id (R146). -/
def submitValid (p : SubmitParams) (ownId : Byte) : Bool :=
  (match submitKind p with
    | some .station => validId p.destination && p.destination != ownId
    | some .group => validId p.destination
    | some .all => true
    | none => false)
    && decide (1 ≤ p.repeats.toNat) && decide (p.repeats.toNat ≤ 3)
    && decide (p.hops.toNat ≤ 7)
    && decide (1 ≤ p.payload.length) && decide (p.payload.length ≤ 48)

/-- The identity fields of a submitted message (R145, R181). -/
def submitIdentity (p : SubmitParams) : Identity where
  destination := p.destination
  kind := (submitKind p).getD .all
  urgent := p.urgent != 0
  length := p.payload.length

/-! ## Responses -/

/-- The statuses of a response (R182). -/
inductive Status where
  | ok
  | empty
  | full
  | notConfigured
  | locked
  | badRequest
  | badParameter
  deriving DecidableEq, Repr

/-- The code of a status (R182). -/
def Status.code : Status → Byte
  | .ok => 0x00#8
  | .empty => 0x01#8
  | .full => 0x02#8
  | .notConfigured => 0x03#8
  | .locked => 0x04#8
  | .badRequest => 0x05#8
  | .badParameter => 0x06#8

/-- A two-byte number, low byte first (12_formats.md). -/
def lowFirst (v : Nat) : List Byte := [BitVec.ofNat 8 v, BitVec.ofNat 8 (v / 256)]

/-- One byte of a small number. -/
def byteOf (v : Nat) : Byte := BitVec.ofNat 8 v

/-- A response's bytes: status, body length, body (R176, R182). -/
def responseBytes (st : Status) (body : List Byte) : List Byte :=
  st.code :: byteOf body.length :: body

/-- The body of an OK COLLECT_MESSAGE response (R182). -/
def messageBody (m : Message) (payload : List Byte) : List Byte :=
  [m.key.origin, m.key.session.setWidth 8] ++ lowFirst m.key.sequence.toNat
    ++ [m.identity.kind.code.setWidth 8, m.identity.destination, if m.identity.urgent then 1 else 0, byteOf m.hops,
      byteOf m.combined, byteOf m.heard, byteOf m.relayers.length]
    ++ (m.relayers ++ List.replicate 4 0).take 4 ++ lowFirst m.unresolved
    ++ [byteOf m.identity.length] ++ payload

/-- The code of a report's outcome (R182). -/
def ReportOutcome.code : ReportOutcome → Byte
  | .echoed => 0
  | .silent => 1
  | .unsent => 2

/-- The body of an OK COLLECT_REPORT response (R182). -/
def reportBody (r : Report) : List Byte :=
  [r.handle] ++ lowFirst r.sequence.toNat
    ++ [byteOf r.repeatsRequested, byteOf r.repeatsSent, byteOf r.echoes, r.outcome.code]

/-- The body of an OK READ_COUNTERS response (R182). -/
def countersBody (cs : Counters) : List Byte :=
  Counter.inOrder.flatMap fun c => lowFirst (cs.get c).toNat

/-- The code of a station state (R182). -/
def StationState.code : StationState → Byte
  | .unconfigured => 0
  | .listening => 1
  | .running => 2

/-- The code of a medium state (R182). -/
def Medium.code : Medium → Byte
  | .idle => 0
  | .busy => 1

/-- The code of a controller state (R182). -/
def Controller.code : Controller → Byte
  | .idle => 0
  | .backoff _ _ _ => 1
  | .sending _ _ _ _ => 2

/-- The status record (R177) in its layout (R182). -/
def statusBody (s : State) : List Byte :=
  [s.station.state.code, s.station.session.setWidth 8] ++ lowFirst s.station.nextSequence.toNat
    ++ [byteOf s.inbox.length, byteOf s.reports.length, byteOf s.outbox.length,
      byteOf (s.relays.countP Option.isSome), byteOf (s.table.countP Option.isSome), byteOf s.history.length,
      byteOf (slotsInUse s.slots), s.line.medium.code, s.transmit.controller.code,
      if s.decoder.isSome then 1 else 0, s.flags.byte]

end Sys2Proof.Machine
end

