-- ==== Sys2Proof/Machine/Clock.lean ====
section
/-! DEFINITION. Time: REFCLK periods, line ticks and milliseconds, and letting time run to the moment of an event
(R17, R28, R80, R130, R163; log 1, log 2). -/

namespace Sys2Proof.Machine

/-- REFCLK periods of a tick, by the configured unit code (R17). -/
def ConfigRecord.tickPeriods (c : ConfigRecord) : Nat :=
  match c.unitCode with
  | 0 => 4
  | 1 => 8
  | _ => 16

/-- The Body Store slot of the granted item; past the last slot where there is no such item (log 13). -/
def grantedSlot (s : State) (g : Granted) : Nat :=
  match g with
  | .relay i => ((relayAt s i).map RelayItem.slot).getD s.slots.length
  | .origin i => ((s.outbox[i]?).map OriginItem.slot).getD s.slots.length

/-- The copy a granted item sends, under a header and body check already fixed (R137, R138). -/
def txCopy (s : State) (g : Granted) (header : List Byte) (check : BodyCheck) : TxCopy :=
  ⟨header, payloadAt s (grantedSlot s g), check⟩

/-- The Transmit Controller `k` ticks on: the slot timer counts on an IDLE medium up to the end of the slot (R130), and
the stream of an accepted copy moves on (R139). A tick is counted as it ends, so the tick of a grant within it, in part
past, counts whole toward the first slot (log 24). -/
def controllerAfter (k : Nat) (s : State) : Controller :=
  match s.transmit.controller with
  | .idle => .idle
  | .backoff g c t =>
    if s.transmit.view = .idle ∧ 0 < c then .backoff g c (min Config.slotTicks (t + k)) else .backoff g c t
  | .sending g h b .pending => .sending g h b .pending
  | .sending g h b (.accepted e t) =>
    let c := txCopy s g h b
    .sending g h b (.accepted (c.run c.elementBound e t k).1 (c.run c.elementBound e t k).2)

/-- LED_OUT with the stream at the controller's position (R27). Outside transmissions it is dark. -/
def ledFor (s : State) (c : Controller) : Bool :=
  match c with
  | .sending g h b (.accepted e t) => (txCopy s g h b).led e t
  | _ => false

/-- The Line Interface's timers `k` ticks on: the space timer runs in DARK and stops at 96, the mark timer runs in LIT
and stays at 255 (R18, R20, R24). -/
def Line.after (l : Line) (k : Nat) : Line :=
  { l with
    tick := l.tick + k
    spaceTimer := if l.phase = .dark then min Config.silenceTicks (l.spaceTimer + k) else l.spaceTimer
    markTimer := if l.phase = .lit then min 255 (l.markTimer + k) else l.markTimer }

/-- The millisecond timer `n` REFCLK periods on (R163). -/
def Station.after (st : Station) (n : Nat) : Station :=
  { st with
    milliTimer := st.milliTimer + BitVec.ofNat 32 ((st.milliPhase + n) / Config.periodsPerMilli)
    milliPhase := (st.milliPhase + n) % Config.periodsPerMilli }

/-- Line ticks that end within the next `n` REFCLK periods, the present one counted whole however much of it is past;
none without a tick base (R17; log 24 for the slot timer). -/
def ticksWithin (s : State) (n : Nat) : Nat :=
  if s.line.phase = .off then 0 else (s.line.tickPhase + n) / s.cfg.tickPeriods

/-- REFCLK periods into the present tick, `n` periods on (R17). -/
def tickPhaseAfter (s : State) (n : Nat) : Nat :=
  if s.line.phase = .off then s.line.tickPhase else (s.line.tickPhase + n) % s.cfg.tickPeriods

/-- The part `n` REFCLK periods on, with its pins as they are and neither sampled nor any event taken in between (log 2;
for a single period log 1). While RSTn holds the part
in reset no timer runs (R170). -/
def advance (n : Nat) (s : State) : State :=
  if n = 0 then s
  else if s.station.held then { s with refclk := s.refclk + n }
  else
    { s with
      refclk := s.refclk + n
      station := s.station.after n
      line := { s.line.after (ticksWithin s n) with
        tickPhase := tickPhaseAfter s n
        ledOut := ledFor s (controllerAfter (ticksWithin s n) s) }
      transmit := { s.transmit with controller := controllerAfter (ticksWithin s n) s } }

/-- REFCLK periods to a tick time; none where it has been reached (R17). -/
def periodsToTick (s : State) (tick : Nat) : Nat :=
  (tick - s.line.tick) * s.cfg.tickPeriods - s.line.tickPhase

/-- REFCLK periods to a millisecond time; none where it has been reached (R163). -/
def periodsToMilli (s : State) (deadline : Millis) : Nat :=
  if toCome s.station.milliTimer deadline then
    distanceAhead s.station.milliTimer deadline * Config.periodsPerMilli - s.station.milliPhase
  else 0

/-- Time runs to a tick time (log 2). -/
def runToTick (tick : Nat) (s : State) : State := advance (periodsToTick s tick) s

/-- Time runs to a deadline (log 2). -/
def runToMilli (deadline : Millis) (s : State) : State := advance (periodsToMilli s deadline) s

/-- Time runs to a REFCLK time (log 2). -/
def runToPeriod (period : Nat) (s : State) : State := advance (period - s.refclk) s

end Sys2Proof.Machine
end

