-- ==== Sys2Proof/Machine/Relay.lean ====
section
/-! DEFINITION. The Relay Schedule (07_relay_scheduling_and_suppression.md). -/

namespace Sys2Proof.Machine

/-- An item is removed: its hold on its slot is released and its index given up (R115, R116, R120). -/
def dropRelay (i : Nat) (item : RelayItem) (s : State) : State :=
  releaseSlot item.slot .relay { s with relays := s.relays.set i none }

/-- An item is suppressed (R115, R117). -/
def suppressRelay (i : Nat) (item : RelayItem) (s : State) : State :=
  count .relaysSuppressed (dropRelay i item s)

/-- Whether an item takes heard counts: in HOLDING, READY and CONTENDING, not in SENDING (R114). -/
def RelayState.hears : RelayState → Bool
  | .holding => true
  | .ready _ => true
  | .contending _ => true
  | .sending _ => false

/-- A DUPLICATE counted by the item that holds its key, up to 255 (R114). -/
def RelayItem.hear (item : RelayItem) (key : Key) : RelayItem :=
  if item.key = key ∧ item.state.hears then { item with heard := min 255 (item.heard + 1) } else item

/-- The Relay Schedule takes a DUPLICATE of a key (R114). -/
def hearDuplicate (key : Key) (s : State) : State :=
  { s with relays := s.relays.map (Option.map fun item => item.hear key) }

/-- Conditions 1 to 5 of R110 for a recovered message. -/
def relayWanted (s : State) (e : Entry) : Bool :=
  s.station.state == .running && s.cfg.relayEnable && decide (1 ≤ e.bestHops)
    && !(e.identity.kind == .station && e.identity.destination == s.cfg.stationId)
    && s.relays.all (fun r => (r.map RelayItem.key) != some e.key)

/-- The lowest index not held by an item (R109). -/
def relayPlace (relays : List (Option RelayItem)) : Option Nat := relays.findIdx? Option.isNone

/-- A new relay item for a recovered message (R112). -/
def newRelay (e : Entry) (slot : Nat) (deadline : Millis) : RelayItem where
  key := e.key
  identity := e.identity
  hops := e.bestHops - 1
  slot := slot
  state := .holding
  holdOffDeadline := deadline
  heard := e.heard
  deferrals := 0

/-- Delivery's request for a relay item: declined, refused for want of room, or made with a drawn hold-off and a hold
on the slot (R110 to R113). -/
def requestRelay (e : Entry) (slot : Nat) (s : State) : State :=
  if relayWanted s e then
    match relayPlace s.relays with
    | none => flagScheduleFull (count .relaysRefused s)
    | some i =>
      let draw := s.nextDraw (s.cfg.holdOffRange e.identity.urgent)
      let item := newRelay e slot (deadlineAfter s.station.milliTimer draw)
      holdSlot slot .relay { s.drawn with relays := s.relays.set i (some item) }
  else s

/-- The hold-off expiry of a relay item in HOLDING: the first suppression check (R115). -/
def relayHoldOffExpiry (i : Nat) (s : State) : State :=
  match relayAt s i with
  | none => s
  | some item =>
    if item.state = .holding then
      let s1 := runToMilli item.holdOffDeadline s
      if s1.cfg.threshold ≤ item.heard then suppressRelay i item s1
      else updateRelay i (fun r => { r with state := .ready s1.station.milliTimer }) s1
    else s

/-- RELAY_HOLD_OFF_EXPIRY (R115). -/
def execRelayHoldOffExpiry (i : Nat) (s : State) : Host.Outcome State Fault Refusal :=
  .next (live (relayHoldOffExpiry i) s)

end Sys2Proof.Machine
end

