-- ==== Sys2Proof/Machine/Table.lean ====
section
/-! DEFINITION. The Combining Table and the Decode Queue (04_the_combining_table.md, R76). -/

namespace Sys2Proof.Machine

/-! ## Accumulators -/

/-- A confidence added to an accumulator, saturated at -63 and +63 (R60). -/
def addSaturated (a c : Int) : Int := max (-63) (min 63 (a + c))

/-- A copy's confidences merged into the accumulators (R60). -/
def mergeConfidences (acc conf : List Int) : List Int := List.zipWith addSaturated acc conf

/-- The unresolved count: accumulators whose value is 0 (R61). -/
def unresolvedCount (acc : List Int) : Nat := acc.countP (fun v => v == 0)

/-- The coverage gate: unresolved at most N/4 (R61). -/
def Entry.covered (e : Entry) : Bool :=
  decide (unresolvedCount e.accumulators ≤ codedLength e.identity.length / 4)

/-! ## The gate and the queue -/

/-- The entry becomes QUEUED and its index joins the tail of the Decode Queue (R61, R62). -/
def enqueue (i : Nat) (e : Entry) (s : State) : State :=
  { s with
    table := s.table.set i (some { e with state := .queued })
    decodeQueue := s.decodeQueue ++ [i] }

/-- The coverage gate after a merge: applied to a WAITING entry (R61). -/
def gate (i : Nat) (s : State) : State :=
  match entryAt s i with
  | some e => if e.state = .waiting ∧ e.covered then enqueue i e s else s
  | none => s

/-! ## New copies -/

/-- The entry a NEW copy fills (R58). -/
def newEntry (r : CopyRecord) (deadline : Millis) : Entry where
  state := .waiting
  recheck := false
  final := false
  key := r.header.key
  identity := r.header.identity
  accumulators := r.confidences
  combined := 1
  heard := 1
  relayers := [r.header.relayer]
  bestHops := r.header.hops
  deadline := deadline

/-- A candidate for eviction: its deadline's rank and its index (R57). -/
structure Evictable where
  rank : Int
  index : Nat
  deriving DecidableEq, Repr

/-- The entry in WAITING or QUEUED at an index, as a candidate (R57). -/
def evictable (now : Millis) (i : Nat) (e : Option Entry) : Option Evictable :=
  match e with
  | some e => if e.state = .decoding then none else some ⟨deadlineRank now e.deadline, i⟩
  | none => none

/-- The entry to evict: the earliest deadline, the lower index at a tie (R57, R163). -/
def evictee (s : State) : Option Nat :=
  (firstBy (fun a b => decide (a.rank < b.rank))
    ((s.table.mapIdx (evictable s.station.milliTimer)).filterMap id)).map Evictable.index

/-- An entry is evicted: out of the Decode Queue, FREE, counted (R57). -/
def evict (s : State) : State :=
  match evictee s with
  | some i =>
    count .entriesEvicted
      { s with table := s.table.set i none, decodeQueue := s.decodeQueue.filter (fun j => j != i) }
  | none => s

/-- The lowest-indexed FREE entry; past the last one where none is FREE (R56, log 13). -/
def freeEntry (table : List (Option Entry)) : Nat := (table.findIdx? Option.isNone).getD table.length

/-- A NEW copy takes the lowest FREE entry, after an eviction if there is none, and is gated at once
(R56, R58, R61). -/
def openEntry (r : CopyRecord) (s : State) : State :=
  let s1 := if s.table.all Option.isSome then evict s else s
  let i := freeEntry s1.table
  gate i (putEntry i (some (newEntry r (deadlineAfter s1.station.milliTimer s1.cfg.windowMs))) s1)

/-! ## Further copies -/

/-- The relayer list with one more relayer heard: appended if new and fewer than 4 are held (R59). -/
def addRelayer (l : List Byte) (r : Byte) : List Byte :=
  if l.contains r ∨ Config.relayerIds ≤ l.length then l else l ++ [r]

/-- The bookkeeping of a MATCH copy (R59). -/
def Entry.hear (e : Entry) (h : Header) : Entry :=
  { e with
    heard := min 255 (e.heard + 1)
    relayers := addRelayer e.relayers h.relayer
    bestHops := max e.bestHops h.hops }

/-- The merge of a MATCH copy: RECHECK is set if the entry is DECODING (R60). -/
def Entry.merge (e : Entry) (conf : List Int) : Entry :=
  { e with
    accumulators := mergeConfidences e.accumulators conf
    combined := e.combined + 1
    recheck := e.recheck || e.state == .decoding }

/-- A MATCH copy into an entry: bookkeeping, then below 15 merged copies the merge and the gate (R59 to R61). -/
def matchCopy (i : Nat) (r : CopyRecord) (s : State) : State :=
  match entryAt s i with
  | none => s
  | some e0 =>
    let e := e0.hear r.header
    if e.combined < Config.mergeLimit then gate i (putEntry i (some (e.merge r.confidences)) s)
    else putEntry i (some e) s

/-! ## Decoder outcomes and deadlines -/

/-- An entry freed by its deadline (R65, R69). -/
def expireEntry (i : Nat) (s : State) : State := count .entriesExpired (putEntry i none s)

/-- A failed decode settles the DECODING entry (R69). -/
def settleFailure (i : Nat) (s : State) : State :=
  let s1 := count .decodesFailed s
  match entryAt s1 i with
  | none => s1
  | some e =>
    if e.final then expireEntry i s1
    else if e.recheck ∧ e.covered then enqueue i { e with recheck := false } s1
    else putEntry i (some { e with state := .waiting, recheck := false }) s1

/-- The deadline of an occupied entry that has not been reached before: a WAITING entry is freed, a QUEUED or DECODING
entry takes FINAL (R64 to R66). -/
def entryDeadline (i : Nat) (s : State) : State :=
  match entryAt s i with
  | none => s
  | some e =>
    if e.final then s
    else
      let s1 := runToMilli e.deadline s
      if e.state = .waiting then expireEntry i s1 else putEntry i (some { e with final := true }) s1

/-- ENTRY_DEADLINE (R64). -/
def execEntryDeadline (i : Nat) (s : State) : Host.Outcome State Fault Refusal :=
  .next (live (entryDeadline i) s)

/-- The table at RESTART, power-on and RSTn: every entry FREE (R74, R75). -/
def freeTable : List (Option Entry) := List.replicate Config.entries none

end Sys2Proof.Machine
end

