-- ==== Sys2Proof/Machine/Decoder.lean ====
section
/-! DEFINITION. The Decoder and Delivery: the take, the completion, the Delivery History and the Inbox
(05_the_decoder.md, 06_delivery_history_body_store_and_inbox.md). -/

namespace Sys2Proof.Machine

/-! ## Delivery -/

/-- A key inserted as the newest of the Delivery History, the oldest removed from a full one (R94). -/
def insertKey (history : List Key) (key : Key) : List Key :=
  (if history.length < Config.historyKeys then history else history.tail) ++ [key]

/-- Whether a message is for this station (R101). -/
def forThisStation (c : ConfigRecord) (i : Identity) : Bool :=
  match i.kind with
  | .all => true
  | .group => c.groups.contains i.destination
  | .station => i.destination == c.stationId

/-- The Inbox message of a recovered message (R68, R102). -/
def inboxMessage (e : Entry) (unresolved slot : Nat) : Message where
  key := e.key
  identity := e.identity
  hops := e.bestHops
  combined := e.combined
  heard := e.heard
  relayers := e.relayers
  unresolved := unresolved
  slot := slot

/-- A message for this station is appended to the Inbox with its hold, or dropped at a full Inbox (R103). -/
def offerInbox (m : Message) (s : State) : State :=
  if s.inbox.length < Config.inboxMessages then
    count .messagesDelivered (holdSlot m.slot .inbox { s with inbox := s.inbox ++ [m] })
  else flagInboxOverflow (count .inboxOverflows s)

/-- Delivery: destination match, Inbox, then the request for a relay item (R92). -/
def deliver (e : Entry) (unresolved slot : Nat) (s : State) : State :=
  requestRelay e slot
    (if forThisStation s.cfg e.identity then offerInbox (inboxMessage e unresolved slot) s else s)

/-! ## The take -/

/-- The decode of an entry as the take sets it up (R77, R78, R80). -/
def newDecode (i : Nat) (e : Entry) (slot now : Nat) : Decode where
  entry := i
  snapshot := e.accumulators
  length := e.identity.length
  identityBlock := identityBlock e.key e.identity
  unresolved := unresolvedCount e.accumulators
  slot := slot
  completion := now + Config.periodsPerStep * (8 * e.identity.length + 20)

/-- The Decoder, IDLE, takes the head of the Decode Queue and reserves a slot (R63, R78, R79). -/
def decoderTake (s : State) : State :=
  match s.decoder, s.decodeQueue with
  | none, i :: rest =>
    match entryAt s i with
    | none => s
    | some e =>
      let slot := lowestFree s.slots
      holdSlot slot .decoder
        { s with
          table := s.table.set i (some { e with state := .decoding })
          decodeQueue := rest
          decoder := some (newDecode i e slot s.refclk) }
  | _, _ => s

/-- DECODER_TAKE (R78). -/
def execDecoderTake (s : State) : Host.Outcome State Fault Refusal := .next (live decoderTake s)

/-! ## The completion -/

/-- The Decoder IDLE, its reservation ended (R83, R84). -/
def endDecode (slot : Nat) (s : State) : State := { releaseSlot slot .decoder s with decoder := none }

/-- A decode succeeds: payload written, entry freed, key into the Delivery History, message delivered, reservation
ended (R67, R68, R83, R92, R94). -/
def decodeSuccess (d : Decode) (payload : List Byte) (s : State) : State :=
  let s1 := writeSlot d.slot payload s
  match entryAt s1 d.entry with
  | none => endDecode d.slot s1
  | some e =>
    endDecode d.slot
      (deliver e d.unresolved d.slot
        { s1 with table := s1.table.set d.entry none, history := insertKey s1.history e.key })

/-- A decode fails: reservation released, the Combining Table settles the entry (R69, R84). -/
def decodeFailure (d : Decode) (s : State) : State := settleFailure d.entry (endDecode d.slot s)

/-- The decode in progress reaches its completion time (R82). -/
def decodeCompletion (s : State) : State :=
  match s.decoder with
  | none => s
  | some d =>
    let s1 := runToPeriod d.completion s
    match decodeOutcome d.length d.identityBlock d.snapshot with
    | some payload => decodeSuccess d payload s1
    | none => decodeFailure d s1

/-- DECODE_COMPLETION (R82). -/
def execDecodeCompletion (s : State) : Host.Outcome State Fault Refusal := .next (live decodeCompletion s)

end Sys2Proof.Machine
end

