-- ==== Sys2Proof/Machine/Outbox.lean ====
section
/-! DEFINITION. The Outbox and the Report Queue (09_originated_messages_and_reports.md). -/

namespace Sys2Proof.Machine

/-! ## Reports -/

/-- The outcome of a report, on the counts as they stand (R154). -/
def OriginItem.outcome (o : OriginItem) : ReportOutcome :=
  if 1 ≤ o.echoes then .echoed else if 1 ≤ o.repeatsSent then .silent else .unsent

/-- The report of an item (R154). -/
def OriginItem.report (o : OriginItem) : Report where
  handle := o.handle
  sequence := o.key.sequence
  repeatsRequested := o.repeatsRequested
  repeatsSent := o.repeatsSent
  echoes := o.echoes
  outcome := o.outcome

/-- A grant follows its item when an item ahead of it leaves the Outbox (R144). -/
def Granted.shift (removed : Nat) : Granted → Granted
  | .relay i => .relay i
  | .origin i => if removed < i then .origin (i - 1) else .origin i

/-- The controller once the origin item at an index has left the Outbox (R144). -/
def Controller.shift (removed : Nat) : Controller → Controller
  | .idle => .idle
  | .backoff g c t => .backoff (g.shift removed) c t
  | .sending g h b x => .sending (g.shift removed) h b x

/-- An item leaves the Outbox: its hold is released and those behind it move forward (R144, R155). -/
def removeOrigin (i : Nat) (o : OriginItem) (s : State) : State :=
  releaseSlot o.slot .origin
    { s with
      outbox := s.outbox.eraseIdx i
      transmit := { s.transmit with controller := s.transmit.controller.shift i } }

/-- The report of an item is filed at the tail of the Report Queue and the item removed (R155). -/
def fileReport (i : Nat) (o : OriginItem) (s : State) : State :=
  removeOrigin i o { s with reports := s.reports ++ [o.report] }

/-- A report is made: filed if the Report Queue has room, else the item waits in REPORT_PENDING (R155). -/
def makeReport (i : Nat) (s : State) : State :=
  match s.outbox[i]? with
  | none => s
  | some o =>
    if s.reports.length < Config.reports then fileReport i o s
    else updateOrigin i (fun o => { o with state := .reportPending }) s

/-- The Outbox index of the first REPORT_PENDING item (R155). -/
def firstPending (outbox : List OriginItem) : Option Nat :=
  outbox.findIdx? (fun o => o.state == .reportPending)

/-- The head of the Report Queue is removed; if that leaves 7, the first REPORT_PENDING item is filed (R155, R156). -/
def removeReport (s : State) : State :=
  let s1 := { s with reports := s.reports.tail }
  if s1.reports.length + 1 = Config.reports then
    match firstPending s1.outbox with
    | none => s1
    | some i =>
      match s1.outbox[i]? with
      | none => s1
      | some o => fileReport i o s1
  else s1

/-! ## Repeats -/

/-- An item whose repeat has ended, sent or abandoned, before it goes on (R150). -/
def OriginItem.repeatEnded (o : OriginItem) (sent : Bool) : OriginItem :=
  { o with
    repeatsSent := o.repeatsSent + sent.toNat
    repeatsEnded := o.repeatsEnded + 1
    deferrals := 0 }

/-- A repeat ends: the item goes to its next hold-off, to its echo window, or to its report (R150). -/
def endRepeat (sent : Bool) (i : Nat) (s : State) : State :=
  match s.outbox[i]? with
  | none => s
  | some o0 =>
    let o := o0.repeatEnded sent
    let s1 := if sent then count .originsSent s else s
    if o.repeatsEnded < o.repeatsRequested then
      let draw := s1.nextDraw (s1.cfg.holdOffRange o.identity.urgent)
      updateOrigin i (fun _ => { o with state := .holding (deadlineAfter s1.station.milliTimer draw) }) s1.drawn
    else if 1 ≤ o.repeatsSent then
      updateOrigin i
        (fun _ => { o with state := .echoWait (deadlineAfter s1.station.milliTimer s1.cfg.windowMs) }) s1
    else makeReport i (updateOrigin i (fun _ => o) s1)

/-! ## Echoes -/

/-- An ECHO counted by every item of its sequence, up to 15 (R152). -/
def OriginItem.hearEcho (o : OriginItem) (seq : Sequence) : OriginItem :=
  if o.key.sequence = seq then { o with echoes := min 15 (o.echoes + 1) } else o

/-- The Outbox takes an ECHO of a sequence (R152). -/
def hearEcho (seq : Sequence) (s : State) : State :=
  { s with outbox := s.outbox.map (fun o => o.hearEcho seq) }

/-! ## Entry to RUNNING -/

/-- A HELD item becomes READY at the listen expiry (R148, R162). -/
def OriginItem.release (o : OriginItem) (now : Millis) : OriginItem :=
  if o.state = .held then { o with state := .ready now } else o

/-! ## Commands -/

/-- The hold-off expiry of an origin item in HOLDING (R151). -/
def originHoldOffExpiry (i : Nat) (s : State) : State :=
  match s.outbox[i]? with
  | none => s
  | some o =>
    match o.state with
    | .holding d =>
      let s1 := runToMilli d s
      updateOrigin i (fun o => { o with state := .ready s1.station.milliTimer }) s1
    | _ => s

/-- ORIGIN_HOLD_OFF_EXPIRY (R151). -/
def execOriginHoldOffExpiry (i : Nat) (s : State) : Host.Outcome State Fault Refusal :=
  .next (live (originHoldOffExpiry i) s)

/-- The echo deadline of an origin item in ECHO_WAIT (R153). -/
def echoDeadline (i : Nat) (s : State) : State :=
  match s.outbox[i]? with
  | none => s
  | some o =>
    match o.state with
    | .echoWait d => makeReport i (runToMilli d s)
    | _ => s

/-- ECHO_DEADLINE (R153). -/
def execEchoDeadline (i : Nat) (s : State) : Host.Outcome State Fault Refusal :=
  .next (live (echoDeadline i) s)

end Sys2Proof.Machine
end

