-- ==== Sys2Proof/Machine/Assembler.lean ====
section
/-! DEFINITION. The Copy Assembler and its verdicts (03_copy_assembly_and_verdicts.md). -/

namespace Sys2Proof.Machine

/-! ## Verdicts -/

/-- The entry that holds a key (R49). -/
def findKey (table : List (Option Entry)) (key : Key) : Option Nat :=
  table.findIdx? (fun e => (e.map Entry.key) == some key)

/-- The verdict of a copy: the first test of R49 that holds. -/
def verdictOf (s : State) (h : Header) : Verdict :=
  if h.key.origin = s.cfg.stationId then
    if h.key.session = s.station.session then .echo else .selfConflict
  else if h.key ∈ s.history then .duplicate
  else
    match findKey s.table h.key with
    | none => .new
    | some i => if (entryAt s i).map Entry.identity = some h.identity then .matched i else .keyConflict

/-- What the assembler does with a verdict (R50). -/
def actOn (v : Verdict) (r : CopyRecord) (s : State) : State :=
  match v with
  | .echo => hearEcho r.header.key.sequence (count .echoes s)
  | .selfConflict => flagSelfConflict (count .selfConflicts s)
  | .duplicate => hearDuplicate r.header.key (count .duplicates s)
  | .keyConflict => flagKeyConflict (count .keyConflicts s)
  | .matched i => matchCopy i r s
  | .new => openEntry r s

/-- The verdict of a copy made and acted on (R49 to R51). -/
def giveVerdict (r : CopyRecord) (s : State) : State :=
  actOn (verdictOf s r.header) r (count .copiesAccepted s)

/-! ## The copy record -/

/-- The copy record formed from the Copy Buffer (R48). -/
def Assembler.record (a : Assembler) : Option CopyRecord :=
  a.decided.map fun h => ⟨h, a.body.take (codedLength h.identity.length)⟩

/-- A new copy begins: the Copy Buffer and the erasure run are cleared (R37). -/
def Assembler.begin : Assembler := { Assembler.reset with phase := .header }

/-- The erasure run after a symbol: 0 after a data symbol, one more after an erasure, at most 24 (R36, R38, R43;
log 12). -/
def runAfter (run : Nat) (erased : Bool) : Nat := if erased then min Config.erasureLimit (run + 1) else 0

/-! ## Ends of a copy -/

/-- A copy ends with its header rejected (R39 to R42). -/
def rejectHeader (s : State) : State :=
  count .headersRejected (setAssembler { s.assembler with phase := .hunt } s)

/-- The copy's verdict is made and the copy handed on; then the assembler enters the given phase, its decided header
gone (R36, R44, R45). -/
def closeCopy (next : AssemblerPhase) (s : State) : State :=
  let s1 :=
    match s.assembler.record with
    | some r => giveVerdict r s
    | none => s
  setAssembler { s1.assembler with phase := next, decided := none } s1

/-- A copy ends TRUNCATED (R45). -/
def truncateCopy (s : State) : State := closeCopy .hunt (count .copiesTruncated s)

/-! ## Symbols -/

/-- The Copy Buffer with one more header symbol (R38). -/
def Assembler.takeHeaderSymbol (a : Assembler) (confidence : Int) (erased : Bool) : Assembler :=
  { a with
    headerSums := a.headerSums.modify (a.headerIndex % Config.headerBits) (fun v => v + confidence)
    headerIndex := a.headerIndex + 1
    erasureRun := runAfter a.erasureRun erased }

/-- The Copy Buffer with one more body symbol (R43). -/
def Assembler.takeBodySymbol (a : Assembler) (m : Nat) (confidence : Int) (erased : Bool) : Assembler :=
  { a with
    body := a.body.set (codedPosition m a.bodyIndex) confidence
    bodyIndex := a.bodyIndex + 1
    erasureRun := runAfter a.erasureRun erased }

/-- A header symbol; at the 192nd the header is decided, and a run of 24 erasures before it rejects the header
(R38, R39, R41). -/
def headerSymbol (confidence : Int) (erased : Bool) (s : State) : State :=
  let a := s.assembler.takeHeaderSymbol confidence erased
  if a.headerIndex = Config.headerSymbols then
    match decideHeader a.headerSums with
    | some h => setAssembler { a with decided := some h, bodyIndex := 0, phase := .body } s
    | none => rejectHeader (setAssembler a s)
  else if erased ∧ a.erasureRun = Config.erasureLimit then rejectHeader (setAssembler a s)
  else setAssembler a s

/-- A body symbol; at the Nth the copy is COMPLETE, and a run of 24 erasures before it truncates the copy
(R43 to R45). -/
def bodySymbol (confidence : Int) (erased : Bool) (s : State) : State :=
  match s.assembler.decided with
  | none => s
  | some h =>
    let a := s.assembler.takeBodySymbol (roundLength h.identity.length) confidence erased
    if a.bodyIndex = codedLength h.identity.length then closeCopy .tail (setAssembler a s)
    else if erased ∧ a.erasureRun = Config.erasureLimit then truncateCopy (setAssembler a s)
    else setAssembler a s

/-! ## Line events -/

/-- The confidence of a data symbol of soft value s: 2s - 7 (R22). -/
def confidenceOf (soft : Nat) : Int := 2 * (soft : Int) - 7

/-- A line event in phase HEADER (R38 to R42). -/
def headerEvent (ev : LineEvent) (s : State) : State :=
  match ev with
  | .dataSymbol v => headerSymbol (confidenceOf v) false s
  | .erasure => headerSymbol 0 true s
  | .startMarker => setAssembler Assembler.begin (rejectHeader s)
  | .endMarker => rejectHeader s
  | .silence => rejectHeader s

/-- A line event in phase BODY (R43 to R46). -/
def bodyEvent (ev : LineEvent) (s : State) : State :=
  match ev with
  | .dataSymbol v => bodySymbol (confidenceOf v) false s
  | .erasure => bodySymbol 0 true s
  | .startMarker => setAssembler Assembler.begin (truncateCopy s)
  | .endMarker => truncateCopy s
  | .silence => truncateCopy s

/-- A line event in phase TAIL (R47). -/
def tailEvent (ev : LineEvent) (s : State) : State :=
  match ev with
  | .dataSymbol _ => s
  | .erasure => s
  | .startMarker => setAssembler Assembler.begin s
  | .endMarker => setAssembler { s.assembler with phase := .hunt } s
  | .silence => setAssembler { s.assembler with phase := .hunt } s

/-- A line event in phase HUNT: only a start marker counts (R37). -/
def huntEvent (ev : LineEvent) (s : State) : State :=
  match ev with
  | .startMarker => setAssembler Assembler.begin s
  | _ => s

/-- The Copy Assembler takes a line event (R37 to R47). -/
def assemble (ev : LineEvent) (s : State) : State :=
  match s.assembler.phase with
  | .hunt => huntEvent ev s
  | .header => headerEvent ev s
  | .body => bodyEvent ev s
  | .tail => tailEvent ev s

end Sys2Proof.Machine
end

