-- ==== Sys2Proof/Machine/Transmit.lean ====
section
/-! DEFINITION. The Transmit Controller: arbiter, backoff, deferrals, abandonment and the last check
(08_transmit_control_and_medium_access.md). -/

namespace Sys2Proof.Machine

/-! ## The granted item -/

/-- Whether the granted item is urgent (R129). -/
def grantedUrgent (s : State) (g : Granted) : Bool :=
  match g with
  | .relay i => ((relayAt s i).map (fun r => r.identity.urgent)).getD false
  | .origin i => ((s.outbox[i]?).map (fun o => o.identity.urgent)).getD false

/-- The granted item's deferrals (R131). -/
def grantedDeferrals (s : State) (g : Granted) : Nat :=
  match g with
  | .relay i => ((relayAt s i).map RelayItem.deferrals).getD 0
  | .origin i => ((s.outbox[i]?).map OriginItem.deferrals).getD 0

/-- A READY item granted, or a SENDING item whose hand-over was refused, is CONTENDING; its ready time stays
(R116, R129, R135, R149). -/
def RelayState.contend : RelayState → RelayState
  | .ready t => .contending t
  | .sending t => .contending t
  | st => st

/-- As `RelayState.contend`, for an origin item (R149). -/
def OriginState.contend : OriginState → OriginState
  | .ready t => .contending t
  | .sending t => .contending t
  | st => st

/-- A CONTENDING relay item becomes SENDING (R117). -/
def RelayState.send : RelayState → RelayState
  | .contending t => .sending t
  | st => st

/-- A CONTENDING origin item becomes SENDING (R149). -/
def OriginState.send : OriginState → OriginState
  | .contending t => .sending t
  | st => st

/-- The owner records that the item is CONTENDING (R129, R135). -/
def markContending (g : Granted) (s : State) : State :=
  match g with
  | .relay i => updateRelay i (fun r => { r with state := r.state.contend }) s
  | .origin i => updateOrigin i (fun o => { o with state := o.state.contend }) s

/-- The owner records that the item is SENDING (R133). -/
def markSending (g : Granted) (s : State) : State :=
  match g with
  | .relay i => updateRelay i (fun r => { r with state := r.state.send }) s
  | .origin i => updateOrigin i (fun o => { o with state := o.state.send }) s

/-- The item's deferrals incremented by one (R129, R131, R135). -/
def addDeferral (g : Granted) (s : State) : State :=
  match g with
  | .relay i => updateRelay i (fun r => { r with deferrals := r.deferrals + 1 }) s
  | .origin i => updateOrigin i (fun o => { o with deferrals := o.deferrals + 1 }) s

/-! ## Deferrals and abandonment -/

/-- The granted item is abandoned at the deferral limit and handed back to its owner (R132, R116, R150). -/
def abandon (g : Granted) (s : State) : State :=
  let s1 := setController .idle (count .transmissionsAbandoned s)
  match g with
  | .relay i =>
    match relayAt s1 i with
    | some item => dropRelay i item s1
    | none => s1
  | .origin i => endRepeat false i s1

/-- One deferral for the granted item and the limit test (R131, R132). -/
def deferGranted (g : Granted) (s : State) : State :=
  let s1 := addDeferral g s
  if s1.cfg.deferralLimit ≤ grantedDeferrals s1 g then abandon g s1 else s1

/-- The Transmit Controller takes a report of the medium: its view follows, and a report of BUSY during a backoff
costs the partial slot and a deferral (R26, R126, R131, R139). -/
def reportMedium (m : Medium) (s : State) : State :=
  let s1 := { s with transmit := { s.transmit with view := m } }
  match m, s.transmit.controller with
  | .busy, .backoff g c _ => deferGranted g (setController (.backoff g c 0) s1)
  | _, _ => s1

/-! ## The arbiter -/

/-- A READY item as the arbiter sees it (R128): `waited` is how far its ready time lies behind the timer. -/
structure Candidate where
  item : Granted
  urgent : Bool
  waited : Nat
  deriving DecidableEq, Repr

/-- Whether an item is a relay item, and its index (R128). -/
def Granted.place : Granted → Bool × Nat
  | .origin i => (false, i)
  | .relay i => (true, i)

/-- The grant order: urgent first, then the earlier ready time, then origin before relay, then the lower index
(R128). -/
def Candidate.before (a b : Candidate) : Bool :=
  if a.urgent ≠ b.urgent then a.urgent
  else if a.waited ≠ b.waited then decide (b.waited < a.waited)
  else if a.item.place.1 ≠ b.item.place.1 then b.item.place.1
  else decide (a.item.place.2 < b.item.place.2)

/-- A relay item as a candidate, if it is READY (R127). -/
def relayCandidate (now : Millis) (i : Nat) (r : Option RelayItem) : Option Candidate :=
  match r with
  | some item =>
    match item.state with
    | .ready t => some ⟨.relay i, item.identity.urgent, distanceBehind now t⟩
    | _ => none
  | none => none

/-- An origin item as a candidate, if it is READY (R127). -/
def originCandidate (now : Millis) (i : Nat) (o : OriginItem) : Option Candidate :=
  match o.state with
  | .ready t => some ⟨.origin i, o.identity.urgent, distanceBehind now t⟩
  | _ => none

/-- The READY items (R127). -/
def candidates (s : State) : List Candidate :=
  (s.outbox.mapIdx (originCandidate s.station.milliTimer)).filterMap id
    ++ (s.relays.mapIdx (relayCandidate s.station.milliTimer)).filterMap id

/-- The item the arbiter grants: the first in grant order (R128). -/
def arbitrate (s : State) : Option Granted := (firstBy Candidate.before (candidates s)).map Candidate.item

/-- BACKOFF with a drawn count for a granted item (R129, R135). -/
def drawBackoff (g : Granted) (s : State) : State :=
  setController (.backoff g (s.nextDraw (backoffRange (grantedUrgent s g))) 0) s.drawn

/-- The grant of an item: CONTENDING, a drawn backoff, and a deferral on a BUSY medium (R129). -/
def grantItem (g : Granted) (s : State) : State :=
  let s1 := drawBackoff g (markContending g s)
  if s1.transmit.view = .busy then deferGranted g s1 else s1

/-- The grant, with the controller IDLE and an item READY (R127). -/
def grant (s : State) : State :=
  match s.transmit.controller with
  | .idle =>
    match arbitrate s with
    | some g => grantItem g s
    | none => s
  | _ => s

/-- GRANT (R127). -/
def execGrant (s : State) : Host.Outcome State Fault Refusal := .next (live grant s)

/-! ## Backoff -/

/-- The slot timer reaches 64 on an IDLE medium: the count falls by one (R130; log 24 for the tick of a grant within
it). -/
def slotEnd (s : State) : State :=
  match s.transmit.controller with
  | .backoff g (c + 1) t =>
    if s.transmit.view = .idle then
      setController (.backoff g c 0) (runToTick (s.line.tick + (Config.slotTicks - t)) s)
    else s
  | _ => s

/-- SLOT_END (R130). -/
def execSlotEnd (s : State) : Host.Outcome State Fault Refusal := .next (live slotEnd s)

/-! ## Backoff completion -/

/-- The header of a granted item: its own key and identity fields, this station as relayer, the item's hops
(R3, R119, R137). -/
def itemHeader (s : State) (key : Key) (identity : Identity) (hops : Nat) : List Byte :=
  headerBytes ⟨key, identity, s.cfg.stationId, hops⟩

/-- The item becomes SENDING: header built, body check fixed, copy handed over (R133, R137, R138). -/
def handCopyOver (g : Granted) (key : Key) (identity : Identity) (hops slot : Nat) (s : State) : State :=
  setController
    (.sending g (itemHeader s key identity hops) (bodyCheck (identityBlock key identity) (payloadAt s slot)) .pending)
    (markSending g s)

/-- Backoff completion: a relay item gets its last check, an origin item none (R117, R133). -/
def backoffCompletion (s : State) : State :=
  match s.transmit.controller with
  | .backoff g 0 _ =>
    if s.transmit.view = .idle then
      match g with
      | .relay i =>
        match relayAt s i with
        | some r =>
          if s.cfg.threshold ≤ r.heard then setController .idle (suppressRelay i r s)
          else handCopyOver g r.key r.identity r.hops r.slot s
        | none => setController .idle s
      | .origin i =>
        match s.outbox[i]? with
        | some o => handCopyOver g o.key o.identity o.hops o.slot s
        | none => setController .idle s
    else s
  | _ => s

/-- BACKOFF_COMPLETION (R133). -/
def execBackoffCompletion (s : State) : Host.Outcome State Fault Refusal := .next (live backoffCompletion s)

/-! ## The end of a copy -/

/-- A copy sent to its end marker is handed back to its owner, and the controller returns to IDLE
(R120, R140, R150). -/
def handBackSent (g : Granted) (s : State) : State :=
  let s1 := setController .idle s
  match g with
  | .relay i =>
    match relayAt s1 i with
    | some item => count .relaysSent (dropRelay i item s1)
    | none => s1
  | .origin i => endRepeat true i s1

end Sys2Proof.Machine
end

