-- ==== Sys2Proof/Machine/Line.lean ====
section
/-! DEFINITION. The Line Interface: edges, marks, silence, the medium state, the start and end of a transmission,
blinding (02_the_light_line.md, R133 to R140). -/

namespace Sys2Proof.Machine

/-! ## Mark classes -/

/-- The soft value of a data mark of t ticks (R22). -/
def softValue (t : Nat) : Nat :=
  if t ≤ 17 then 0 else if t ≤ 20 then 1 else if t ≤ 22 then 2 else if t ≤ 24 then 3
  else if t ≤ 26 then 4 else if t ≤ 28 then 5 else if t ≤ 31 then 6 else 7

/-- The line event of a mark of t ticks (R21). -/
def classifyMark (t : Nat) : LineEvent :=
  if t < 8 then .erasure else if t < 40 then .dataSymbol (softValue t) else if t < 56 then .endMarker
  else if t < 72 then .startMarker else .erasure

/-! ## The medium -/

/-- The medium state set; a change is reported to the Transmit Controller (R25, R26). -/
def setMedium (m : Medium) (s : State) : State :=
  if s.line.medium = m then s else reportMedium m (setLine { s.line with medium := m } s)

/-! ## Reception -/

/-- Reception begins with the present tick as the first of a space and the first sample of the edge filter
(R31, R33, R34). -/
def Line.listen (l : Line) (demodIn : Bool) : Line :=
  { l with
    phase := .dark
    runCount := if demodIn then 1 else 0
    runFirst := l.tick
    markTimer := 0
    spaceTimer := 1
    silenceRaised := false
    blindingDeadline := none }

/-- The edge filter takes the sample of the present tick (R19). The pending run stands at 3 when an edge is accepted,
until its event is taken (log 10). -/
def Line.sample (l : Line) (demodIn : Bool) : Line :=
  match l.phase with
  | .dark =>
    if demodIn then
      { l with runCount := min 3 (l.runCount + 1), runFirst := if l.runCount = 0 then l.tick else l.runFirst }
    else { l with runCount := 0 }
  | .lit =>
    if demodIn then { l with runCount := 0 }
    else { l with runCount := min 3 (l.runCount + 1), runFirst := if l.runCount = 0 then l.tick else l.runFirst }
  | .off => l
  | .blind => l

/-- The pin DEMOD_IN at a level. -/
def setDemodIn (level : Bool) (s : State) : State := { s with pins := { s.pins with demodIn := level } }

/-! ## Edges -/

/-- The time stamp of the edge being accepted: the pending run's first tick, or the next tick where no run has begun
(R19, log 2). -/
def Line.edgeStamp (l : Line) : Nat := if l.runCount = 0 then l.tick + 1 else l.runFirst

/-- The line once a rising edge of a given time stamp is accepted (R19, R20). -/
def Line.rise (l : Line) (stamp : Nat) : Line :=
  { l with
    phase := .lit
    runCount := 0
    markStamp := stamp
    markTimer := min 255 (l.tick + 1 - stamp) }

/-- An accepted rising edge in DARK: the mark timer starts and the medium turns BUSY (R19, R20, R25). It ends the space,
and a silence of that space that has not been taken by then is dropped for good (log 25). -/
def risingEdge (s : State) : State :=
  if s.line.phase = .dark then
    let stamp := s.line.edgeStamp
    let s1 := runToTick (stamp + 2) s
    setMedium .busy (setLine (s1.line.rise stamp) s1)
  else s

/-- RISING_EDGE (R19): DEMOD_IN is high, and in DARK the edge is accepted. -/
def execRisingEdge (s : State) : Host.Outcome State Fault Refusal := .next (live risingEdge (setDemodIn true s))

/-- The line once a falling edge of a given time stamp is accepted (R20, R24). -/
def Line.fall (l : Line) (stamp : Nat) : Line :=
  { l with
    phase := .dark
    runCount := 0
    spaceTimer := min Config.silenceTicks (l.tick + 1 - stamp)
    silenceRaised := false }

/-- The time stamp of a falling edge that ends a mark of `length` ticks: the pending run's first tick, or where no run
has begun the tick the length gives, but not one already past (R20, log 6). -/
def Line.fallStamp (l : Line) (length : Nat) : Nat :=
  if l.runCount = 0 then max (l.markStamp + length) (l.tick + 1) else l.runFirst

/-- An accepted falling edge in LIT: the mark is classified and its line event handed to the Copy Assembler
(R20, R21, R23). -/
def fallingEdge (length : Nat) (s : State) : State :=
  if s.line.phase = .lit then
    let stamp := s.line.fallStamp length
    let s1 := runToTick (stamp + 2) s
    assemble (classifyMark (min 255 (stamp - s.line.markStamp))) (setLine (s1.line.fall stamp) s1)
  else s

/-- FALLING_EDGE (R20): DEMOD_IN is low, and in LIT the edge is accepted. -/
def execFallingEdge (length : BitVec 8) (s : State) : Host.Outcome State Fault Refusal :=
  .next (live (fallingEdge length.toNat) (setDemodIn false s))

/-! ## Silence -/

/-- The state once the order of a verdict and the checks of its instant has been chosen (log 21). -/
def State.ordered (s : State) : State := { s with orderCount := s.orderCount + 1 }

/-- The grant or the backoff completion that is due now, if one is (R127, R133). -/
def nextCheck (s : State) : State :=
  match s.transmit.controller with
  | .idle => grant s
  | _ => backoffCompletion s

/-- As many as `n` grants and backoff completions of this instant, one after the other (R117, R127, R133). -/
def takeChecks : Nat → State → State
  | 0, s => s
  | n + 1, s => takeChecks n (nextCheck s)

/-- A silence that ends a body on a BUSY medium: the report of IDLE, the checks that follow it and the verdict fall at
one instant, and R118 gives both orders of a verdict and a check. How many of the checks come before the verdict is
free; those left follow as events of their own (log 21). -/
def silenceInBody (s : State) : State :=
  assemble .silence (takeChecks (Config.checksFirst s.orderCount) (setMedium .idle s.ordered))

/-- The silence event handed to the Copy Assembler, and the medium IDLE (R24). Only in phase BODY does it give a
verdict, whose order with the checks of that instant is open (R118). -/
def endSpace (s : State) : State :=
  if s.assembler.phase = .body ∧ s.line.medium = .busy then silenceInBody s
  else setMedium .idle (assemble .silence s)

/-- The space's 96th tick: a silence event for the Copy Assembler of a configured station, and the medium IDLE
(R24). -/
def silence (s : State) : State :=
  if s.line.phase = .dark ∧ s.line.silenceRaised = false then
    let s1 := runToTick (s.line.tick + (Config.silenceTicks - s.line.spaceTimer)) s
    let s2 := setLine { s1.line with spaceTimer := Config.silenceTicks, silenceRaised := true } s1
    if s2.station.state = .unconfigured then setMedium .idle s2 else endSpace s2
  else s

/-- SILENCE (R24). -/
def execSilence (s : State) : Host.Outcome State Fault Refusal := .next (live silence s)

/-! ## Own transmissions -/

/-- The line at the first tick of a transmission: TXACT high, carrier lit, receiver blind (R27, R28, R30). The present
tick is the first, whatever of it is past (log 23). -/
def Line.startSending (l : Line) : Line :=
  { l with
    phase := .blind
    runCount := 0
    markTimer := 0
    spaceTimer := 0
    blindingDeadline := none
    ledOut := true
    txact := true }

/-- The hand-over is taken: the transmission starts in the present tick (R28, R135; log 23 for a tick in part past). -/
def startTransmission (g : Granted) (header : List Byte) (check : BodyCheck) (s : State) : State :=
  setMedium .busy
    (setLine s.line.startSending (setController (.sending g header check (.accepted .startMarker 0)) s))

/-- The hand-over is refused on a BUSY medium: CONTENDING again, a fresh backoff, one deferral (R135). -/
def refuseHandOver (g : Granted) (s : State) : State :=
  let s1 := drawBackoff g (markContending g s)
  deferGranted g { s1 with transmit := { s1.transmit with view := .busy } }

/-- The Line Interface takes the pending hand-over or refuses it (R28, R135). -/
def handOver (s : State) : State :=
  match s.transmit.controller with
  | .sending g h b .pending =>
    if s.line.medium = .idle then startTransmission g h b s else refuseHandOver g s
  | _ => s

/-- HAND_OVER (R135). -/
def execHandOver (s : State) : Host.Outcome State Fault Refusal := .next (live handOver s)

/-- The line at the tick after the end marker: dark, TXACT low, the blinding deadline 2 U ahead (R29). -/
def Line.stopSending (l : Line) : Line :=
  { l with ledOut := false, txact := false, blindingDeadline := some (l.tick + Config.blindingTicks) }

/-- The transmission in progress reaches the tick after its end marker (R29, R140). -/
def transmissionComplete (s : State) : State :=
  match s.transmit.controller with
  | .sending g h b (.accepted e t) =>
    let c := txCopy s g h b
    let s1 := runToTick (s.line.tick + c.remaining c.elementBound e t) s
    handBackSent g (setLine s1.line.stopSending s1)
  | _ => s

/-- TRANSMISSION_COMPLETE (R29). -/
def execTransmissionComplete (s : State) : Host.Outcome State Fault Refusal :=
  .next (live transmissionComplete s)

/-- The blinding deadline: reception resumes, the medium still BUSY (R31). -/
def blindingEnd (s : State) : State :=
  match s.line.phase, s.line.blindingDeadline with
  | .blind, some d =>
    let s1 := runToTick d s
    setLine (s1.line.listen s1.pins.demodIn) s1
  | _, _ => s

/-- BLINDING_END (R31). -/
def execBlindingEnd (s : State) : Host.Outcome State Fault Refusal := .next (live blindingEnd s)

end Sys2Proof.Machine
end

