-- ==== Sys2Proof/Machine/StationLife.lean ====
section
/-! DEFINITION. Station life: power-on, RSTn, the listen expiry, and what an accepted CONFIGURE and a RESTART do in
every block (10_station_life_configuration_listening_and_restart.md). -/

namespace Sys2Proof.Machine

/-! ## Power-on and RSTn -/

/-- Every block in its reset state (R170): the state after power-on, but with the queue, the pins and the model's
counts of free values as they stand, a freshly drawn session tag, and the part held while RSTn is low. -/
def resetPart (s : State) : State :=
  { State.reset with
    pending := s.pending
    pins := s.pins
    inputs := s.inputs
    drawCount := s.drawCount + 1
    choiceCount := s.choiceCount
    orderCount := s.orderCount
    station := Station.reset (BitVec.ofNat 4 (s.nextDraw 16)) (!s.pins.rstn)
    port := Port.reset s.pins }

/-- RSTn at a level. -/
def setRstn (level : Bool) (s : State) : State := { s with pins := { s.pins with rstn := level } }

/-- POWER_ON (R170). -/
def execPowerOn (s : State) : Host.Outcome State Fault Refusal := .next (resetPart s)

/-- RSTn goes low: every block takes its reset state and is held there (R170). While RSTn is low already, there is no
falling edge and nothing changes. -/
def rstnReset (s : State) : State :=
  if s.station.held then setRstn false s else resetPart (setRstn false s)

/-- RSTN_RESET (R170). -/
def execRstnReset (s : State) : Host.Outcome State Fault Refusal := .next (rstnReset s)

/-- RSTn returns high: the hold ends, the millisecond timer starts from 0, and the port waits for a falling edge of CSn
(R170, R171). -/
def rstnRelease (s : State) : State :=
  let s1 := setRstn true s
  if s.station.held then
    { s1 with
      station := { s1.station with held := false, milliTimer := 0, milliPhase := 0 }
      port := Port.reset s1.pins }
  else s1

/-- RSTN_RELEASE (R170). -/
def execRstnRelease (s : State) : Host.Outcome State Fault Refusal := .next (rstnRelease s)

/-! ## The listen period -/

/-- The listen deadline of an entry to LISTENING: twice the collection window ahead (R162). -/
def listenUntil (now : Millis) (c : ConfigRecord) : Millis := deadlineAfter now (2 * c.windowMs)

/-- The listen expiry: RUNNING, and every HELD item READY in Outbox order (R148, R162). -/
def listenExpiry (s : State) : State :=
  match s.station.state, s.station.listenDeadline with
  | .listening, some d =>
    let s1 := runToMilli d s
    { s1 with
      station := { s1.station with state := .running, listenDeadline := none }
      outbox := s1.outbox.map (fun o => o.release s1.station.milliTimer) }
  | _, _ => s

/-- LISTEN_EXPIRY (R162). -/
def execListenExpiry (s : State) : Host.Outcome State Fault Refusal := .next (live listenExpiry s)

/-! ## CONFIGURE -/

/-- An accepted CONFIGURE: the record is written, the station is LISTENING, and reception begins at the first tick of
the new tick base (R33, R161, R162). -/
def configureStation (c : ConfigRecord) (s : State) : State :=
  { s with
    station :=
      { s.station with
        config := some c
        state := .listening
        listenDeadline := some (listenUntil s.station.milliTimer c) }
    line := { s.line with tick := 0, tickPhase := 0 }.listen s.pins.demodIn }

/-! ## RESTART -/

/-- The line at a RESTART: transmission cut, TXACT low, blinding ended, medium BUSY, reception restarted (R34). -/
def Line.restart (l : Line) (demodIn : Bool) : Line :=
  { l.listen demodIn with ledOut := false, txact := false, medium := .busy }

/-- The Host Port at a RESTART: not reset, but a head that a response carried is no longer there to be removed
(R104, R156, R167, R171; log 15). -/
def Port.restart (p : Port) : Port :=
  { p with response := p.response.map fun r => { r with present := false } }

/-- An accepted RESTART: every block takes its part in the one event (R34, R53, R74, R89, R93, R100, R106, R125, R141,
R158, R169). -/
def restartPart (s : State) : State :=
  { s with
    station :=
      { s.station with
        state := .listening
        listenDeadline := some (listenUntil s.station.milliTimer s.cfg)
        session := s.station.session + 1
        nextSequence := 0 }
    line := s.line.restart s.pins.demodIn
    assembler := Assembler.reset
    table := freeTable
    decodeQueue := []
    decoder := none
    history := []
    slots := List.replicate Config.slots Slot.free
    inbox := []
    relays := List.replicate Config.relayItems none
    outbox := []
    reports := []
    transmit := ⟨.idle, .busy⟩
    port := s.port.restart }

end Sys2Proof.Machine
end

