-- ==== Sys2Proof/Machine/HostPort.lean ====
section
/-! DEFINITION. The Host Port: transactions, the takes of the eight requests, responses and what their final byte
commits (11_the_host_port.md). -/

namespace Sys2Proof.Machine

/-! ## Responses -/

/-- The response to a request is fixed: its bytes, what its final byte commits, phase RESPONSE (R173, R176). -/
def respond (st : Status) (body : List Byte) (commit : Commit) (s : State) : State :=
  setPort
    { s.port with
      phase := .response
      response := some ⟨responseBytes st body, commit, true⟩
      position := 0 } s

/-- A response with an empty body that commits nothing (R175). -/
def answer (st : Status) (s : State) : State := respond st [] .nothing s

/-- A request that UNCONFIGURED refuses (R175). -/
def whenConfigured (take : State → State) (s : State) : State :=
  if s.station.state = .unconfigured then answer .notConfigured s else take s

/-! ## The takes -/

/-- The take of a CONFIGURE (R161). -/
def takeConfigure (p : ConfigureParams) (s : State) : State :=
  if s.station.state ≠ .unconfigured then answer .locked s
  else if configureValid p then answer .ok (configureStation (configureRecord p) s)
  else answer .badParameter s

/-- The origin item of an accepted SUBMIT (R145, R147). -/
def newOrigin (p : SubmitParams) (slot : Nat) (s : State) : OriginItem where
  handle := p.handle
  key := ⟨s.cfg.stationId, s.station.session, s.station.nextSequence⟩
  identity := submitIdentity p
  hops := if p.hops = 0 then s.cfg.defaultHops else p.hops.toNat
  slot := slot
  repeatsRequested := p.repeats.toNat
  repeatsSent := 0
  repeatsEnded := 0
  echoes := 0
  state := if s.station.state = .running then .ready s.station.milliTimer else .held
  deferrals := 0

/-- An accepted SUBMIT: slot, key, item, next sequence (R97, R147). -/
def acceptSubmit (p : SubmitParams) (s : State) : State :=
  let slot := lowestFree s.slots
  holdSlot slot .origin
    (writeSlot slot p.payload
      { s with
        outbox := s.outbox ++ [newOrigin p slot s]
        station := { s.station with nextSequence := s.station.nextSequence + 1 } })

/-- The take of a SUBMIT (R146, R147). -/
def takeSubmit (p : SubmitParams) (s : State) : State :=
  if !submitValid p s.cfg.stationId then answer .badParameter s
  else if s.outbox.length < Config.originItems then
    respond .ok (lowFirst s.station.nextSequence.toNat) .nothing (acceptSubmit p s)
  else answer .full s

/-- The take of a COLLECT_MESSAGE: the head is copied, not removed (R104). -/
def takeCollectMessage (s : State) : State :=
  match s.inbox with
  | [] => answer .empty s
  | m :: _ => respond .ok (messageBody m (payloadAt s m.slot)) .inboxHead s

/-- The take of a COLLECT_REPORT: the head is copied, not removed (R156). -/
def takeCollectReport (s : State) : State :=
  match s.reports with
  | [] => answer .empty s
  | r :: _ => respond .ok (reportBody r) .reportHead s

/-- The take of a READ_STATUS (R177). -/
def takeReadStatus (s : State) : State := respond .ok (statusBody s) .nothing s

/-- The take of a READ_COUNTERS with its clear option (R167, R175, R181). -/
def takeReadCounters (clear : Byte) (s : State) : State :=
  if clear = 0 then respond .ok (countersBody s.counters) .nothing s
  else if clear = 1 then respond .ok (countersBody s.counters) .clearCounters s
  else answer .badParameter s

/-- The take of a CLEAR_EVENTS with its mask (R168, R175, R181). -/
def takeClearEvents (mask : Byte) (s : State) : State :=
  if mask.extractLsb' 4 4 = 0 then answer .ok { s with flags := s.flags.clear mask }
  else answer .badParameter s

/-- The take of a complete request: framing first, then the station state, then the request's own checks
(R173 to R175). -/
def takeRequest (r : Request) (s : State) : State :=
  match r with
  | .configure p => takeConfigure p s
  | .submit p => whenConfigured (takeSubmit p) s
  | .collectMessage => whenConfigured takeCollectMessage s
  | .collectReport => whenConfigured takeCollectReport s
  | .readStatus => takeReadStatus s
  | .readCounters c => takeReadCounters c s
  | .clearEvents m => whenConfigured (takeClearEvents m) s
  | .restart => whenConfigured (fun s => answer .ok (restartPart s)) s
  | .malformed _ => answer .badRequest s

/-! ## What a final byte commits -/

/-- The collected message leaves the Inbox and lets go of its slot (R104). -/
def removeMessage (s : State) : State :=
  match s.inbox with
  | [] => s
  | m :: rest => releaseSlot m.slot .inbox { s with inbox := rest }

/-- The effect of a response's final byte; a head that a RESTART has removed since the take is not removed again
(R104, R156, R167, R176). -/
def commitResponse (r : Response) (s : State) : State :=
  match r.commit with
  | .nothing => s
  | .inboxHead => if r.present then removeMessage s else s
  | .reportHead => if r.present && !s.reports.isEmpty then removeReport s else s
  | .clearCounters => { s with counters := Counters.zero }

/-- The response has been shifted out to its final byte: phase TRAILING, and its effect taken (R176). -/
def finishResponse (r : Response) (s : State) : State :=
  commitResponse r (setPort { s.port with phase := .trailing, position := r.bytes.length, byteDone := none } s)

/-! ## Bytes -/

/-- The byte the port shifts out in the present byte period: a response byte in RESPONSE, 00h in REQUEST and TRAILING
(R172, R176). -/
def Port.outByte (p : Port) : Byte :=
  match p.phase, p.response with
  | .response, some r => r.bytes.getD p.position 0
  | _, _ => 0

/-- The port once a byte is complete: bit count 0, MISO still at the byte's last bit (R172). -/
def Port.byteEnd (p : Port) : Port :=
  { p with bitCount := 0, byteDone := none, miso := some (p.outByte.getLsbD 0) }

/-- A complete byte in phase REQUEST: one more request byte, and the take if it completes the request (R173). -/
def requestByte (b : Byte) (s : State) : State :=
  let bytes := s.port.request ++ [b]
  let s1 := setPort { s.port.byteEnd with request := bytes } s
  if requestComplete bytes then takeRequest (parseRequest bytes) s1 else s1

/-- A complete byte in phase RESPONSE: one more response byte is out, and at the last the response is finished
(R176). -/
def responseByte (s : State) : State :=
  match s.port.response with
  | none => s
  | some r =>
    let s1 := setPort { s.port.byteEnd with position := s.port.position + 1 } s
    if r.bytes.length ≤ s.port.position + 1 then finishResponse r s1 else s1

/-- A byte completes at the eighth rising edge of SCK (R172, R173, R176). In IDLE the port ignores it. -/
def byteComplete (b : Byte) (s : State) : State :=
  match s.port.phase with
  | .idle => setPort { s.port with byteDone := none } s
  | .request => requestByte b s
  | .response => responseByte s
  | .trailing => setPort s.port.byteEnd s

/-- BYTE_COMPLETE (R172). -/
def execByteComplete (b : Byte) (s : State) : Host.Outcome State Fault Refusal := .next (live (byteComplete b) s)

/-! ## Transactions -/

/-- CSn at a level, as the port now sees it. -/
def setCsn (level : Bool) (s : State) : State :=
  { s with pins := { s.pins with csn := level }, port := { s.port with csnSeen := level } }

/-- A falling edge of CSn opens a transaction in phase REQUEST (R171, R172). -/
def csnFall (s : State) : State :=
  setPort
    { s.port with
      phase := .request
      bitCount := 0
      request := []
      response := none
      position := 0
      byteDone := none
      miso := some false } s

/-- CSN_FALL (R171): an edge only if CSn was high; held in reset, only the pin changes. -/
def execCsnFall (s : State) : Host.Outcome State Fault Refusal :=
  .next (live (if s.port.csnSeen then csnFall else id) (setCsn false s))

/-- A rising edge of CSn closes the transaction; what is incomplete is discarded (R171 to R173, R176). -/
def csnRise (s : State) : State :=
  setPort
    { s.port with
      phase := .idle
      bitCount := 0
      request := []
      response := none
      position := 0
      byteDone := none
      miso := none } s

/-- CSN_RISE (R171). -/
def execCsnRise (s : State) : Host.Outcome State Fault Refusal := .next (live csnRise (setCsn true s))

/-! ## Requests as commands -/

/-- The rest of a request arrives in the open transaction and the request is taken (R173, log 7). The bytes already
received must begin it; with no transaction in phase REQUEST there is no take. -/
def hostRequest (r : Request) (s : State) : State :=
  if s.port.phase = .request ∧ requestComplete r.bytes ∧ parseRequest r.bytes = r
      ∧ s.port.request.isPrefixOf r.bytes ∧ s.port.request.length < r.bytes.length then
    takeRequest r (setPort { s.port.byteEnd with request := r.bytes } s)
  else s

/-- CONFIGURE (R161). -/
def execConfigure (p : ConfigureParams) (s : State) : Host.Outcome State Fault Refusal :=
  .next (live (hostRequest (.configure p)) s)

/-- SUBMIT (R147). -/
def execSubmit (p : SubmitParams) (s : State) : Host.Outcome State Fault Refusal :=
  .next (live (hostRequest (.submit p)) s)

/-- COLLECT_MESSAGE (R104). -/
def execCollectMessage (s : State) : Host.Outcome State Fault Refusal := .next (live (hostRequest .collectMessage) s)

/-- COLLECT_REPORT (R156). -/
def execCollectReport (s : State) : Host.Outcome State Fault Refusal := .next (live (hostRequest .collectReport) s)

/-- READ_STATUS (R177). -/
def execReadStatus (s : State) : Host.Outcome State Fault Refusal := .next (live (hostRequest .readStatus) s)

/-- READ_COUNTERS (R167). -/
def execReadCounters (clear : Byte) (s : State) : Host.Outcome State Fault Refusal :=
  .next (live (hostRequest (.readCounters clear)) s)

/-- CLEAR_EVENTS (R168). -/
def execClearEvents (mask : Byte) (s : State) : Host.Outcome State Fault Refusal :=
  .next (live (hostRequest (.clearEvents mask)) s)

/-- RESTART (R169). -/
def execRestart (s : State) : Host.Outcome State Fault Refusal := .next (live (hostRequest .restart) s)

/-- MALFORMED_REQUEST (R174, R179). -/
def execMalformedRequest (bytes : List Byte) (s : State) : Host.Outcome State Fault Refusal :=
  .next (live (hostRequest (.malformed bytes)) s)

/-! ## Final bytes as commands -/

/-- The host clocks a response to its final byte, which commits what the response's request asked for (R176, log 7). -/
def clockToEnd (kind : Commit) (s : State) : State :=
  match s.port.phase, s.port.response with
  | .response, some r =>
    if r.commit = kind then
      finishResponse r
        (setPort { s.port.byteEnd with miso := some ((r.bytes.getLastD 0).getLsbD 0) } s)
    else s
  | _, _ => s

/-- COLLECT_MESSAGE_FINAL_BYTE (R104). -/
def execCollectMessageFinalByte (s : State) : Host.Outcome State Fault Refusal :=
  .next (live (clockToEnd .inboxHead) s)

/-- COLLECT_REPORT_FINAL_BYTE (R156). -/
def execCollectReportFinalByte (s : State) : Host.Outcome State Fault Refusal :=
  .next (live (clockToEnd .reportHead) s)

/-- READ_COUNTERS_FINAL_BYTE (R167). -/
def execReadCountersFinalByte (s : State) : Host.Outcome State Fault Refusal :=
  .next (live (clockToEnd .clearCounters) s)

end Sys2Proof.Machine
end

