-- ==== Sys2Proof/Machine/Pins.lean ====
section
/-! DEFINITION. One REFCLK period with no event due: the pins are sampled, the timers run (R17, R19, R163, R172; log 1,
log 8, log 9). -/

namespace Sys2Proof.Machine

/-- The pins take the next levels the outside world holds for them, or keep their levels (log 9). -/
def takePins (s : State) : State := { s with pins := s.inputs.headD s.pins, inputs := s.inputs.tail }

/-- A rising edge of SCK in an open transaction shifts in one bit of MOSI; the eighth completes a byte (R172). -/
def Port.shiftBit (p : Port) (mosi : Bool) : Port :=
  let shifted := (p.shift <<< 1) ||| (BitVec.ofBool mosi).setWidth 8
  { p with
    shift := shifted
    bitCount := p.bitCount + 1
    byteDone := if p.bitCount = 7 then some shifted else p.byteDone }

/-- The bit MISO shows after a falling edge of SCK: the outgoing byte, most significant bit first (R172). -/
def Port.misoBit (p : Port) : Bool := p.outByte.getLsbD (7 - p.bitCount.toNat)

/-- The Host Port samples SCK and MOSI (R172). With CSn high, and in phase IDLE, it ignores them. An edge of SCK in the
REFCLK period in which an edge of CSn is seen is ignored too: no bit is counted, and `sckSeen` follows the pin (log 8). -/
def Port.sample (p : Port) (pins : Pins) : Port :=
  let q := { p with sckSeen := pins.sck }
  if pins.csn || p.csnSeen || p.phase == .idle then q
  else if pins.sck && !p.sckSeen then q.shiftBit pins.mosi
  else if !pins.sck && p.sckSeen then { q with miso := some p.misoBit }
  else q

/-- At each new tick the edge filter takes the level of DEMOD_IN (R17, R19). -/
def sampleLine (before : Nat) (s : State) : State :=
  if s.line.tick = before then s else setLine (s.line.sample s.pins.demodIn) s

/-- One REFCLK period: pins, timers, edge filter, SPI bits. While RSTn holds the part in reset, only the pins
move (R170). -/
def clockPeriod (s : State) : State :=
  let s1 := takePins s
  let s2 := advance 1 s1
  if s2.station.held then s2
  else
    let s3 := sampleLine s1.line.tick s2
    setPort (s3.port.sample s3.pins) s3

end Sys2Proof.Machine
end

