-- ==== Sys2Proof/Machine/Agenda.lean ====
section
/-! DEFINITION. The events that have fallen due at the present instant, and the choice of the one taken first when no
command waits (log 1, log 4). -/

namespace Sys2Proof.Machine

/-- A one-element list where a condition holds. -/
def onlyIf (c : Bool) (i : Instr) : List Instr := if c then [i] else []

/-- Whether a deadline has been reached (R163). -/
def deadlineReached (s : State) (d : Millis) : Bool := !toCome s.station.milliTimer d

/-- A byte completed at the pins (R172). -/
def dueByte (s : State) : List Instr :=
  match s.port.byteDone with
  | some b => [.byteComplete b]
  | none => []

/-- Events at the pins: an accepted edge, an edge of CSn, a complete byte, RSTn (R19, R170, R171, R172). -/
def duePins (s : State) : List Instr :=
  onlyIf (!s.pins.rstn) .rstnReset
    ++ onlyIf (s.line.phase == .dark && s.line.runCount == 3) .risingEdge
    ++ onlyIf (s.line.phase == .lit && s.line.runCount == 3)
        (.fallingEdge (BitVec.ofNat 8 (min 255 (s.line.runFirst - s.line.markStamp))))
    ++ onlyIf (s.port.csnSeen && !s.pins.csn) .csnFall
    ++ onlyIf (!s.port.csnSeen && s.pins.csn) .csnRise
    ++ dueByte s

/-- The end of blinding, if its tick has come (R31). -/
def dueBlinding (s : State) : List Instr :=
  match s.line.phase, s.line.blindingDeadline with
  | .blind, some d => onlyIf (decide (d ≤ s.line.tick)) .blindingEnd
  | _, _ => []

/-- Events of the line's timers (R24, R31). -/
def dueLine (s : State) : List Instr :=
  onlyIf (s.line.phase == .dark && !s.line.silenceRaised && decide (Config.silenceTicks ≤ s.line.spaceTimer)) .silence
    ++ dueBlinding s

/-- Events of the Transmit Controller (R127, R130, R133, R135, R29). -/
def dueTransmit (s : State) : List Instr :=
  match s.transmit.controller with
  | .idle => onlyIf (arbitrate s).isSome .grant
  | .backoff _ c t =>
    onlyIf (s.transmit.view == .idle && c == 0) .backoffCompletion
      ++ onlyIf (s.transmit.view == .idle && c != 0 && decide (Config.slotTicks ≤ t)) .slotEnd
  | .sending _ _ _ .pending => [.handOver]
  | .sending _ _ _ (.accepted e _) => onlyIf (e == .finished) .transmissionComplete

/-- Events of the Decoder (R78, R82). -/
def dueDecoder (s : State) : List Instr :=
  match s.decoder with
  | none => onlyIf (!s.decodeQueue.isEmpty) .decoderTake
  | some d => onlyIf (decide (d.completion ≤ s.refclk)) .decodeCompletion

/-- The deadline of an entry, if it is reached and was not before (R64). -/
def dueEntry (s : State) (i : Nat) (e : Option Entry) : List Instr :=
  match e with
  | some e => onlyIf (!e.final && deadlineReached s e.deadline) (.entryDeadline i)
  | none => []

/-- The hold-off expiry of a relay item, if it is reached (R113). -/
def dueRelay (s : State) (i : Nat) (r : Option RelayItem) : List Instr :=
  match r with
  | some r => onlyIf (r.state == .holding && deadlineReached s r.holdOffDeadline) (.relayHoldOffExpiry i)
  | none => []

/-- The hold-off expiry or echo deadline of an origin item, if it is reached (R151, R153). -/
def dueOrigin (s : State) (i : Nat) (o : OriginItem) : List Instr :=
  match o.state with
  | .holding d => onlyIf (deadlineReached s d) (.originHoldOffExpiry i)
  | .echoWait d => onlyIf (deadlineReached s d) (.echoDeadline i)
  | _ => []

/-- The listen expiry, if it is reached (R162). -/
def dueListen (s : State) : List Instr :=
  match s.station.state, s.station.listenDeadline with
  | .listening, some d => onlyIf (deadlineReached s d) .listenExpiry
  | _, _ => []

/-- Deadlines of the millisecond timer (R163). -/
def dueDeadlines (s : State) : List Instr :=
  (s.table.mapIdx (dueEntry s)).flatten ++ (s.relays.mapIdx (dueRelay s)).flatten
    ++ (s.outbox.mapIdx (dueOrigin s)).flatten ++ dueListen s

/-- Every event due now. While RSTn holds the part, only its release is. -/
def due (s : State) : List Instr :=
  if s.station.held then onlyIf s.pins.rstn .rstnRelease
  else duePins s ++ dueLine s ++ dueTransmit s ++ dueDecoder s ++ dueDeadlines s

/-- The event taken first: the only one due, or a free choice among several (log 4). -/
def nextEvent (s : State) : Option Instr :=
  match due s with
  | [] => none
  | [i] => some i
  | i :: rest => (i :: rest)[Config.eventChoice s.choiceCount % (i :: rest).length]?

/-- The state once a free choice has been made (log 4). -/
def State.chosen (s : State) : State := { s with choiceCount := s.choiceCount + 1 }

end Sys2Proof.Machine
end

