-- ==== Sys2Proof/Machine/Dispatch.lean ====
section
/-! DEFINITION. One arm for each command. -/

namespace Sys2Proof.Machine

def exec (i : Instr) (s : State) : Host.Outcome State Fault Refusal :=
  match i with
  | .powerOn => Sys2Proof.Machine.execPowerOn s
  | .rstnReset => Sys2Proof.Machine.execRstnReset s
  | .risingEdge => Sys2Proof.Machine.execRisingEdge s
  | .fallingEdge length => Sys2Proof.Machine.execFallingEdge length s
  | .silence => Sys2Proof.Machine.execSilence s
  | .blindingEnd => Sys2Proof.Machine.execBlindingEnd s
  | .slotEnd => Sys2Proof.Machine.execSlotEnd s
  | .backoffCompletion => Sys2Proof.Machine.execBackoffCompletion s
  | .handOver => Sys2Proof.Machine.execHandOver s
  | .transmissionComplete => Sys2Proof.Machine.execTransmissionComplete s
  | .grant => Sys2Proof.Machine.execGrant s
  | .decoderTake => Sys2Proof.Machine.execDecoderTake s
  | .decodeCompletion => Sys2Proof.Machine.execDecodeCompletion s
  | .entryDeadline entry => Sys2Proof.Machine.execEntryDeadline entry s
  | .relayHoldOffExpiry item => Sys2Proof.Machine.execRelayHoldOffExpiry item s
  | .originHoldOffExpiry item => Sys2Proof.Machine.execOriginHoldOffExpiry item s
  | .echoDeadline item => Sys2Proof.Machine.execEchoDeadline item s
  | .listenExpiry => Sys2Proof.Machine.execListenExpiry s
  | .csnFall => Sys2Proof.Machine.execCsnFall s
  | .csnRise => Sys2Proof.Machine.execCsnRise s
  | .configure params => Sys2Proof.Machine.execConfigure params s
  | .submit params => Sys2Proof.Machine.execSubmit params s
  | .collectMessage => Sys2Proof.Machine.execCollectMessage s
  | .collectReport => Sys2Proof.Machine.execCollectReport s
  | .readStatus => Sys2Proof.Machine.execReadStatus s
  | .readCounters clear => Sys2Proof.Machine.execReadCounters clear s
  | .clearEvents mask => Sys2Proof.Machine.execClearEvents mask s
  | .restart => Sys2Proof.Machine.execRestart s
  | .malformedRequest request => Sys2Proof.Machine.execMalformedRequest request s
  | .collectMessageFinalByte => Sys2Proof.Machine.execCollectMessageFinalByte s
  | .collectReportFinalByte => Sys2Proof.Machine.execCollectReportFinalByte s
  | .readCountersFinalByte => Sys2Proof.Machine.execReadCountersFinalByte s
  | .rstnRelease => Sys2Proof.Machine.execRstnRelease s
  | .byteComplete mosi => Sys2Proof.Machine.execByteComplete mosi s

end Sys2Proof.Machine
end

