-- ==== Sys2Proof/Machine/Step.lean ====
section
/-! DEFINITION. The step: the command at the front of the queue, or the part going on by itself. -/

namespace Sys2Proof.Machine

/-- One step with no command waiting: an event that has fallen due is taken, or one REFCLK period passes
(log 1, DESIGN CHOICE). -/
def idleStep (s : State) : Host.Outcome State Fault Refusal :=
  match nextEvent s with
  | some e => exec e s.chosen
  | none => .next (clockPeriod s)

/-- One step: the command at the front of the queue on the state with the queue's rest. -/
def step (s : State) : Host.Outcome State Fault Refusal :=
  match s.pending with
  | c :: rest => exec c { s with pending := rest }
  | [] => idleStep s

/-- The state with the command a word spells at the front of its queue; unchanged where the word spells none. -/
def State.withFetchWord (s : State) (nbits w : Nat) : State :=
  match decodeTableWord nbits w with
  | some c => { s with pending := c :: s.pending }
  | none => s

end Sys2Proof.Machine
end

