-- ==== Sys2Proof/Safety.lean ====
section
/-! DEFINITION. What a sound state of the part is, in the terms the statements use: properties that hold at reset and
that every step keeps. -/

namespace Sys2Proof.Machine

/-- The stores have the sizes the manual gives them: 8 entries (R54), 15 relay places (R109), 32 slots (R96), 64 header
sums and 808 body confidences (R36). -/
structure State.ShapesHold (s : State) : Prop where
  entries : s.table.length = 8
  relays : s.relays.length = 15
  slots : s.slots.length = 32
  headerSums : s.assembler.headerSums.length = 64
  body : s.assembler.body.length = 808

/-- The Transmit Controller's view is the medium state (R26, R126). An IDLE medium is reached only by a silence event, so
the line is DARK, its silence raised, and the Copy Assembler in HUNT (R25, R47, R136). An UNCONFIGURED station's receiver
is OFF (R32). -/
structure State.MediumAgrees (s : State) : Prop where
  view : s.transmit.view = s.line.medium
  dark : s.line.medium = .idle → s.line.phase = .dark ∧ s.line.silenceRaised = true
  hunt : s.line.medium = .idle → s.assembler.phase = .hunt
  off : s.station.state = .unconfigured → s.line.phase = .off

/-- ATTN has the level R178 gives it, and a part held in reset shows none (R171). -/
structure State.AttnFollows (s : State) : Prop where
  level : s.port.attn = attnLevel s
  held : s.station.held = true → attnLevel s = false

/-- The queues hold no more than their bounds (R93, R102, R144, R155), and an item is REPORT_PENDING only while the
Report Queue holds 8 reports (R155). -/
structure State.WithinCapacity (s : State) : Prop where
  inbox : s.inbox.length ≤ 12
  outbox : s.outbox.length ≤ 4
  reports : s.reports.length ≤ 8
  history : s.history.length ≤ 32
  pending : ∀ o ∈ s.outbox, o.state = .reportPending → s.reports.length = 8

/-- Each key is in one place: no two entries share a key (R55), nor do two relay items (R109), and no key is in the
Delivery History twice or both there and in the table (R93, R94). The Decode Queue holds exactly the QUEUED entries,
each once (R62), and the one DECODING entry is the one the Decoder holds (R55, R77). -/
structure State.KeysApart (s : State) : Prop where
  distinct : ∀ i j e f, entryAt s i = some e → entryAt s j = some f → e.key = f.key → i = j
  relays : ∀ i j r q, relayAt s i = some r → relayAt s j = some q → r.key = q.key → i = j
  history : s.history.Nodup
  apart : ∀ i e, entryAt s i = some e → e.key ∉ s.history
  queue : s.decodeQueue.Nodup
  queued : ∀ i, i ∈ s.decodeQueue ↔ ∃ e, entryAt s i = some e ∧ e.state = .queued
  decoding : ∀ i, (∃ e, entryAt s i = some e ∧ e.state = .decoding) ↔ ∃ d, s.decoder = some d ∧ d.entry = i

/-- Each Body Store slot in use is held by the parties that its flags name, and by no other: an Inbox message, a relay
item, an origin item, the Decoder's reservation. Each of these holds one slot, no two of a kind the same one, and a slot
under the reservation or under an origin item has no other holder (R96 to R99). -/
structure State.HoldersAgree (s : State) : Prop where
  inbox : ∀ k, (∃ sl, s.slots[k]? = some sl ∧ sl.byInbox = true) ↔ ∃ m ∈ s.inbox, m.slot = k
  relay : ∀ k, (∃ sl, s.slots[k]? = some sl ∧ sl.byRelay = true) ↔ ∃ i r, relayAt s i = some r ∧ r.slot = k
  origin : ∀ k, (∃ sl, s.slots[k]? = some sl ∧ sl.byOrigin = true) ↔ ∃ o ∈ s.outbox, o.slot = k
  decoder : ∀ k, (∃ sl, s.slots[k]? = some sl ∧ sl.byDecoder = true) ↔ ∃ d, s.decoder = some d ∧ d.slot = k
  inboxApart : (s.inbox.map Message.slot).Nodup
  relaysApart : ∀ i j r q, relayAt s i = some r → relayAt s j = some q → r.slot = q.slot → i = j
  originsApart : (s.outbox.map OriginItem.slot).Nodup
  reserved : ∀ sl ∈ s.slots, sl.byDecoder = true →
    sl.byInbox = false ∧ sl.byRelay = false ∧ sl.byOrigin = false
  submitted : ∀ sl ∈ s.slots, sl.byOrigin = true →
    sl.byInbox = false ∧ sl.byRelay = false ∧ sl.byDecoder = false

/-- The fields of an entry are in their ranges (R54, R55, R60). -/
structure Entry.Bounded (e : Entry) : Prop where
  origin : 1 ≤ e.key.origin.toNat ∧ e.key.origin.toNat ≤ 254
  length : 1 ≤ e.identity.length ∧ e.identity.length ≤ 48
  positions : e.accumulators.length = codedLength e.identity.length
  accumulators : ∀ v ∈ e.accumulators, -63 ≤ v ∧ v ≤ 63
  combined : 1 ≤ e.combined ∧ e.combined ≤ 15
  heard : e.combined ≤ e.heard ∧ e.heard ≤ 255
  relayers : 1 ≤ e.relayers.length ∧ e.relayers.length ≤ 4 ∧ e.relayers.Nodup
  relayerIds : ∀ r ∈ e.relayers, 1 ≤ r.toNat ∧ r.toNat ≤ 254
  hops : e.bestHops ≤ 7
  waiting : e.state = .waiting → e.recheck = false ∧ e.final = false
  queued : e.state = .queued → e.recheck = false

/-- The fields of the copy being received are in their ranges (R7, R36): a header sum is the sum of the confidences of
the symbols received so far for its bit, each from -7 to +7; the decided header is as R7 accepts it and present in BODY
alone; the body index is below N while body symbols are still to come. -/
structure Assembler.Bounded (a : Assembler) : Prop where
  sums : a.headerSums.length = 64 ∧ ∀ v ∈ a.headerSums, -21 ≤ v ∧ v ≤ 21
  symbols : ∀ (i : Nat) (v : Int), a.headerSums[i]? = some v →
    v.natAbs ≤ 7 * ((a.headerIndex + 63 - i) / 64)
  headerIndex : a.headerIndex ≤ 192 ∧ (a.phase = .header → a.headerIndex < 192)
  decided : ∀ h, a.decided = some h →
    1 ≤ h.key.origin.toNat ∧ h.key.origin.toNat ≤ 254 ∧ 1 ≤ h.relayer.toNat ∧ h.relayer.toNat ≤ 254
      ∧ 1 ≤ h.identity.length ∧ h.identity.length ≤ 48 ∧ h.hops ≤ 7
  present : a.decided ≠ none ↔ a.phase = .body
  body : a.body.length = 808 ∧ ∀ v ∈ a.body, -7 ≤ v ∧ v ≤ 7
  bodyIndex : a.bodyIndex ≤ 808
    ∧ ∀ h, a.decided = some h → a.bodyIndex < codedLength h.identity.length
  erasureRun : a.erasureRun ≤ 24

/-- Every occupied entry is in its ranges, and so is the copy being received, from which entries are filled (R36, R54,
R58). -/
structure State.EntriesBounded (s : State) : Prop where
  entries : ∀ i e, entryAt s i = some e → e.Bounded
  copy : s.assembler.Bounded

/-- An UNCONFIGURED station has no configuration, hears and sends nothing, and every store is empty (R32, R36, R75, R77,
R93, R96, R106, R109, R126, R144, R160, R166, R168). -/
structure State.QuietUnconfigured (s : State) : Prop where
  config : s.station.state = .unconfigured → s.station.config = none
  line : s.station.state = .unconfigured → s.line = Line.reset
  assembler : s.station.state = .unconfigured → s.assembler = Assembler.reset
  table : s.station.state = .unconfigured →
    s.table = freeTable ∧ s.decodeQueue = [] ∧ s.decoder = none ∧ s.history = []
  stores : s.station.state = .unconfigured →
    s.slots = List.replicate 32 Slot.free ∧ s.inbox = [] ∧ s.relays = List.replicate 15 none
      ∧ s.outbox = [] ∧ s.reports = []
  transmit : s.station.state = .unconfigured → s.transmit = ⟨.idle, .busy⟩
  counts : s.station.state = .unconfigured →
    s.counters = Counters.zero ∧ s.flags = ⟨false, false, false, false⟩


/-! ## Terms of the statements: items of the two owners -/

/-- An item is READY (R127). -/
def isReady (s : State) : Granted → Prop
  | .relay i => ∃ r t, relayAt s i = some r ∧ r.state = .ready t
  | .origin i => ∃ o t, s.outbox[i]? = some o ∧ o.state = .ready t

/-- An item is CONTENDING (R108, R145). -/
def isContending (s : State) : Granted → Prop
  | .relay i => ∃ r t, relayAt s i = some r ∧ r.state = .contending t
  | .origin i => ∃ o t, s.outbox[i]? = some o ∧ o.state = .contending t

/-- An item is SENDING (R108, R145). -/
def isSending (s : State) : Granted → Prop
  | .relay i => ∃ r t, relayAt s i = some r ∧ r.state = .sending t
  | .origin i => ∃ o t, s.outbox[i]? = some o ∧ o.state = .sending t

/-- The granted item is the one CONTENDING item in BACKOFF and the one SENDING item in SENDING, and no other item is in
either state; a backoff counts at most 7 slots (R126, R129). The slot timer stands at 64 only while the end of the slot
waits to be taken (log 10). -/
structure State.GrantAgrees (s : State) : Prop where
  contending : ∀ g, isContending s g ↔ ∃ c u, s.transmit.controller = .backoff g c u
  sending : ∀ g, isSending s g ↔ ∃ h b x, s.transmit.controller = .sending g h b x
  backoff : ∀ g c u, s.transmit.controller = .backoff g c u → c ≤ 7 ∧ u ≤ 64

/-- The ready time a relay item's state carries; 0 where it carries none (R108). -/
def relayReadySince : RelayState → Millis
  | .ready t => t
  | .contending t => t
  | .sending t => t
  | .holding => 0

/-- The ready time an origin item's state carries; 0 where it carries none (R145). -/
def originReadySince : OriginState → Millis
  | .ready t => t
  | .contending t => t
  | .sending t => t
  | .held => 0
  | .holding _ => 0
  | .echoWait _ => 0
  | .reportPending => 0

/-- The ready time of an item (R128). -/
def readyTime (s : State) : Granted → Millis
  | .relay i => ((relayAt s i).map fun r => relayReadySince r.state).getD 0
  | .origin i => ((s.outbox[i]?).map fun o => originReadySince o.state).getD 0

/-- The grant order of R128: urgent, then the earlier ready time, then an origin item, then the lower index. -/
def grantBefore (s : State) (a b : Granted) : Prop :=
  let past (g : Granted) : Nat := (s.station.milliTimer - readyTime s g).toNat
  if grantedUrgent s a ≠ grantedUrgent s b then grantedUrgent s a = true
  else if past a ≠ past b then past b < past a
  else
    match a, b with
    | .origin _, .relay _ => True
    | .relay _, .origin _ => False
    | .origin i, .origin j => i < j
    | .relay i, .relay j => i < j

/-- A slot after a holder has let go: free with nothing in it if that was the last, else as it was but for that
holder (R99). -/
def slotWithout (h : Holder) (sl : Slot) : Slot :=
  let rest : Slot :=
    { sl with
      byInbox := sl.byInbox && h != .inbox
      byRelay := sl.byRelay && h != .relay
      byOrigin := sl.byOrigin && h != .origin
      byDecoder := sl.byDecoder && h != .decoder }
  if rest.byInbox || rest.byRelay || rest.byOrigin || rest.byDecoder then rest
  else ⟨[], false, false, false, false⟩

/-- The report of an item (R154). -/
def reportOf (o : OriginItem) : Report :=
  ⟨o.handle, o.key.sequence, o.repeatsRequested, o.repeatsSent, o.echoes,
    if 1 ≤ o.echoes then .echoed else if 1 ≤ o.repeatsSent then .silent else .unsent⟩

/-- A grant as it stands once the origin item at an index has left the Outbox: the granted item stays granted, under
its new index (R144). -/
def grantAfter (removed : Nat) (g : Granted) : Granted :=
  match g with
  | .relay i => .relay i
  | .origin j => if removed < j then .origin (j - 1) else .origin j

/-- The controller as it stands once the origin item at an index has left the Outbox (R144). -/
def controllerWithout (removed : Nat) (c : Controller) : Controller :=
  match c with
  | .idle => .idle
  | .backoff g n t => .backoff (grantAfter removed g) n t
  | .sending g h b x => .sending (grantAfter removed g) h b x

/-- The state once the report of the origin item `o` at an index is filed and the item gone (R155). -/
def filed (i : Nat) (o : OriginItem) (s : State) : State :=
  { s with
    reports := s.reports ++ [reportOf o]
    outbox := s.outbox.eraseIdx i
    slots := s.slots.modify o.slot (slotWithout .origin)
    transmit := { s.transmit with controller := controllerWithout i s.transmit.controller } }

/-- A report is made of the origin item `o` at an index: filed below 8 reports, else the item waits (R155). -/
def reported (i : Nat) (o : OriginItem) (s : State) : State :=
  if s.reports.length < 8 then filed i o s else { s with outbox := s.outbox.set i { o with state := .reportPending } }

/-- The item once a repeat has ended, sent or not (R150). -/
def repeatOver (sent : Bool) (o : OriginItem) : OriginItem :=
  { o with
    repeatsSent := if sent then o.repeatsSent + 1 else o.repeatsSent
    repeatsEnded := o.repeatsEnded + 1
    deferrals := 0 }

/-- How a repeat of the origin item `o` at an index ends: HOLDING with a drawn hold-off, ECHO_WAIT, or its report
(R150, R113). -/
def RepeatEnds (sent : Bool) (i : Nat) (o : OriginItem) (s t : State) : Prop :=
  let now := s.station.milliTimer
  let o1 := repeatOver sent o
  let s1 := if sent then { s with counters := s.counters.bump .originsSent } else s
  (o1.repeatsEnded < o.repeatsRequested →
    ∃ draw,
      (1 ≤ s.cfg.holdOffWindow →
        draw < if o.identity.urgent then max 1 (s.cfg.holdOffWindow / 4) else s.cfg.holdOffWindow)
      ∧ t = { s1 with
          drawCount := s.drawCount + 1
          outbox := s.outbox.set i { o1 with state := .holding (now + BitVec.ofNat 32 draw) } })
  ∧ (o1.repeatsEnded = o.repeatsRequested → 1 ≤ o1.repeatsSent →
    t = { s1 with
      outbox := s.outbox.set i { o1 with state := .echoWait (now + BitVec.ofNat 32 (10 * s.cfg.windowCode)) } })
  ∧ (o1.repeatsEnded = o.repeatsRequested → o1.repeatsSent = 0 → t = reported i o1 s1)

/-- The state once the relay item `r` at an index is removed: its hold released, its index given up (R115, R116). -/
def relayGone (i : Nat) (r : RelayItem) (s : State) : State :=
  { s with relays := s.relays.set i none, slots := s.slots.modify r.slot (slotWithout .relay) }

/-- What one deferral of the granted item does: counted below the limit D; at D the item is abandoned and handed back
to its owner, and the controller is IDLE (R131, R132, R116, R150). -/
def Defers (g : Granted) (s t : State) : Prop :=
  let s1 := { s with
    counters := s.counters.bump .transmissionsAbandoned
    transmit := { s.transmit with controller := .idle } }
  match g with
  | .relay i => ∀ r, relayAt s i = some r →
    (r.deferrals + 1 < s.cfg.deferralLimit →
      t = { s with relays := s.relays.set i (some { r with deferrals := r.deferrals + 1 }) })
    ∧ (r.deferrals + 1 = s.cfg.deferralLimit → t = relayGone i r s1)
  | .origin i => ∀ o, s.outbox[i]? = some o →
    (o.deferrals + 1 < s.cfg.deferralLimit →
      t = { s with outbox := s.outbox.set i { o with deferrals := o.deferrals + 1 } })
    ∧ (o.deferrals + 1 = s.cfg.deferralLimit → RepeatEnds false i o s1 t)

/-! ## Terms of the statements: events on the line -/

/-- The time stamp of the rising edge: the pending run's first tick (R19), or where no run has begun the next tick
(log 2). -/
def riseStamp (s : State) : Nat := if s.line.runCount = 0 then s.line.tick + 1 else s.line.runFirst

/-- The state once a rising edge is accepted, but for the medium: DEMOD_IN high, time run to the third high sample, the
mark timed from the edge's time stamp (R19, R20; letting time run, and the next tick taken as the first of a run not yet
begun, are log 2; a silence of the space that ends, not taken by then, is dropped: log 25). -/
def afterRise (s : State) : State :=
  let stamp := riseStamp s
  let s1 := runToTick (stamp + 2) { s with pins := { s.pins with demodIn := true } }
  { s1 with
    line :=
      { s1.line with
        phase := .lit
        runCount := 0
        markStamp := stamp
        markTimer := min 255 (s1.line.tick + 1 - stamp) } }

/-- The time stamp of the falling edge that ends a mark of `length` ticks: the pending run's first tick, or where no
run has begun the tick that the length gives, if it is still to come (R19, R20; log 6). -/
def fallStamp (length : BitVec 8) (s : State) : Nat :=
  if s.line.runCount = 0 then max (s.line.markStamp + length.toNat) (s.line.tick + 1) else s.line.runFirst

/-- The line event of the mark that the falling edge ends (R20, R21). -/
def fallEvent (length : BitVec 8) (s : State) : LineEvent :=
  classifyMark (min 255 (fallStamp length s - s.line.markStamp))

/-- The state once a falling edge is accepted, before its line event is taken: DEMOD_IN low, time run to the third low
sample, a space timed from the edge's time stamp (R20, R24; log 2 for letting time run, log 6 for the operand). -/
def afterFall (length : BitVec 8) (s : State) : State :=
  let s1 := runToTick (fallStamp length s + 2) { s with pins := { s.pins with demodIn := false } }
  { s1 with
    line :=
      { s1.line with
        phase := .dark
        runCount := 0
        spaceTimer := min 96 (s1.line.tick + 1 - fallStamp length s)
        silenceRaised := false } }

/-- The state once a space has reached its 96th tick, before the silence event is taken: time run to that tick, the
space timer stopped, silence raised (R24; log 2 for letting time run). -/
def afterSilence (s : State) : State :=
  let s1 := runToTick (s.line.tick + (96 - s.line.spaceTimer)) s
  { s1 with line := { s1.line with spaceTimer := 96, silenceRaised := true } }

/-- The Copy Assembler at the begin of a copy: the Copy Buffer cleared, phase HEADER (R37). -/
def emptyCopy : Assembler where
  phase := .header
  headerSums := List.replicate 64 0
  headerIndex := 0
  decided := none
  body := List.replicate 808 0
  bodyIndex := 0
  erasureRun := 0

/-- What a header or body symbol carries: its confidence, and whether it is an erasure (R21, R22). -/
def symbolOf : LineEvent → Option (Int × Bool)
  | .dataSymbol v => some (2 * (v : Int) - 7, false)
  | .erasure => some (0, true)
  | .endMarker => none
  | .startMarker => none
  | .silence => none

/-- The erasure run after a symbol, in its range of 0 to 24 (R36, R38, R43). -/
def erasuresAfter (run : Nat) (erased : Bool) : Nat := if erased then min 24 (run + 1) else 0

/-- The Copy Assembler with one more header symbol (R38). -/
def headerTaken (a : Assembler) (confidence : Int) (erased : Bool) : Assembler :=
  { a with
    headerSums := a.headerSums.set (a.headerIndex % 64) (a.headerSums.getD (a.headerIndex % 64) 0 + confidence)
    headerIndex := a.headerIndex + 1
    erasureRun := erasuresAfter a.erasureRun erased }

/-- The Copy Assembler with one more body symbol of a copy of length `l`, stored at its coded position (R43). -/
def bodyTaken (l : Nat) (a : Assembler) (confidence : Int) (erased : Bool) : Assembler :=
  let m := (16 * l + 40) / 8
  { a with
    body := a.body.set (8 * (a.bodyIndex % m) + a.bodyIndex / m) confidence
    bodyIndex := a.bodyIndex + 1
    erasureRun := erasuresAfter a.erasureRun erased }

/-- The state once a copy's verdict is given on the record of its Copy Buffer and the copy has ended (R44, R45,
R48). -/
def copyEnded (next : AssemblerPhase) (h : Header) (s : State) : State :=
  { giveVerdict ⟨h, s.assembler.body.take (16 * h.identity.length + 40)⟩ s with
    assembler := { s.assembler with phase := next, decided := none } }

/-- The state once a header is rejected (R39 to R42). -/
def headerLost (a : Assembler) (s : State) : State :=
  { s with counters := s.counters.bump .headersRejected, assembler := { a with phase := .hunt } }

/-! ## Terms of the statements: time and the stream of a copy -/

/-- A deadline has been reached: the timer stands at it or past it. No delay is above 5,100 ms (R163), so a distance
ahead above that is that of a deadline past (log 17). -/
def Reached (now deadline : Millis) : Prop := (deadline - now).toNat = 0 ∨ 5100 < (deadline - now).toNat

/-- Ticks of an element's mark, and of the space after it (R28; R5, R137 and R138 for the values carried). -/
def elementParts (c : TxCopy) : Element → Nat × Nat
  | .startMarker => (64, 16)
  | .headerSymbol h => (if (c.header.getD (h % 64 / 8) 0).getLsbD (h % 8) then 32 else 16, 16)
  | .bodySymbol j => (if c.bodyValue j then 32 else 16, 16)
  | .endMarker => (48, 0)
  | .finished => (0, 0)

/-- The element sent after an element: the start marker, header symbols 0 to 191, body symbols 0 to N - 1, the end
marker (R139), and then none (log 22). -/
def elementAfter (c : TxCopy) : Element → Element
  | .startMarker => .headerSymbol 0
  | .headerSymbol h => if h < 191 then .headerSymbol (h + 1) else .bodySymbol 0
  | .bodySymbol j => if j < 16 * c.payload.length + 39 then .bodySymbol (j + 1) else .endMarker
  | .endMarker => .finished
  | .finished => .finished

/-- Where the stream of a copy stands some ticks after a position of it: an element, and the ticks of it past. -/
def streamAt (c : TxCopy) (e : Element) (past ticks : Nat) : Element × Nat := c.run c.elementBound e past ticks

/-- The stream of a copy: it stays in an element for the element's ticks, then begins the next with no gap, and after
the end marker none; k + l ticks are k ticks and then l (R28, R139). That the position is the element being sent, up to
its last tick, is log 22. -/
structure StreamMoves (c : TxCopy) : Prop where
  within : ∀ e j k, j + k < (elementParts c e).1 + (elementParts c e).2 → streamAt c e j k = (e, j + k)
  next : ∀ e j k, e ≠ .finished → j + k = (elementParts c e).1 + (elementParts c e).2 →
    streamAt c e j k = (elementAfter c e, 0)
  finished : ∀ j k, streamAt c .finished j k = (.finished, 0)
  further : ∀ e j k l, streamAt c e j (k + l) = streamAt c (streamAt c e j k).1 (streamAt c e j k).2 l

/-- LED_OUT at a position of the stream: in a mark, two ticks lit and two dark from its first tick; dark in a space
(R27). -/
def carrierAt (c : TxCopy) (at' : Element × Nat) : Bool :=
  decide (at'.2 < (elementParts c at'.1).1 ∧ at'.2 % 4 < 2)

/-- Whether a command's event is due now, by the condition and the moment of its rule; on a held part only RSTn's own
(R170). RSTn is taken as a level still to be answered, and CSn as one not yet seen (log 9); an accepted edge, the end of
a slot and a completed byte wait to be taken (log 10), and the tick after the end marker is a position of the stream
(log 22). What the host sends by a command of its own is never due
(log 7). -/
def DueNow (c : Instr) (s : State) : Prop :=
  if s.station.held = true then c = .rstnRelease ∧ s.pins.rstn = true
  else
    match c with
    | .powerOn => False
    | .rstnReset => s.pins.rstn = false
    | .rstnRelease => False
    | .risingEdge => s.line.phase = .dark ∧ s.line.runCount = 3
    | .fallingEdge n =>
      s.line.phase = .lit ∧ s.line.runCount = 3
        ∧ n = BitVec.ofNat 8 (min 255 (s.line.runFirst - s.line.markStamp))
    | .silence => s.line.phase = .dark ∧ s.line.silenceRaised = false ∧ 96 ≤ s.line.spaceTimer
    | .blindingEnd => s.line.phase = .blind ∧ ∃ d, s.line.blindingDeadline = some d ∧ d ≤ s.line.tick
    | .slotEnd => s.transmit.view = .idle ∧ ∃ g n t, s.transmit.controller = .backoff g (n + 1) t ∧ 64 ≤ t
    | .backoffCompletion => s.transmit.view = .idle ∧ ∃ g t, s.transmit.controller = .backoff g 0 t
    | .handOver => ∃ g h b, s.transmit.controller = .sending g h b .pending
    | .transmissionComplete => ∃ g h b t, s.transmit.controller = .sending g h b (.accepted .finished t)
    | .grant => s.transmit.controller = .idle ∧ ∃ g, isReady s g
    | .decoderTake => s.decoder = none ∧ s.decodeQueue ≠ []
    | .decodeCompletion => ∃ d, s.decoder = some d ∧ d.completion ≤ s.refclk
    | .entryDeadline i => ∃ e, entryAt s i = some e ∧ e.final = false ∧ Reached s.station.milliTimer e.deadline
    | .relayHoldOffExpiry i =>
      ∃ r, relayAt s i = some r ∧ r.state = .holding ∧ Reached s.station.milliTimer r.holdOffDeadline
    | .originHoldOffExpiry i =>
      ∃ o d, s.outbox[i]? = some o ∧ o.state = .holding d ∧ Reached s.station.milliTimer d
    | .echoDeadline i => ∃ o d, s.outbox[i]? = some o ∧ o.state = .echoWait d ∧ Reached s.station.milliTimer d
    | .listenExpiry =>
      s.station.state = .listening
        ∧ ∃ d, s.station.listenDeadline = some d ∧ Reached s.station.milliTimer d
    | .csnFall => s.port.csnSeen = true ∧ s.pins.csn = false
    | .csnRise => s.port.csnSeen = false ∧ s.pins.csn = true
    | .byteComplete b => s.port.byteDone = some b
    | .configure _ => False
    | .submit _ => False
    | .collectMessage => False
    | .collectReport => False
    | .readStatus => False
    | .readCounters _ => False
    | .clearEvents _ => False
    | .restart => False
    | .malformedRequest _ => False
    | .collectMessageFinalByte => False
    | .collectReportFinalByte => False
    | .readCountersFinalByte => False

/-- What the edge filter does with one sample: one equal to the accepted level empties the run, an opposite one begins a
run at the present tick or lengthens it; OFF and BLIND read nothing (R18, R19). At three the run stands until the
accepted edge is taken (log 10). -/
def FiltersEdges (l : Line) (level : Bool) : Prop :=
  let opposite : Prop := (l.phase = .dark ∧ level = true) ∨ (l.phase = .lit ∧ level = false)
  let equal : Prop := (l.phase = .dark ∧ level = false) ∨ (l.phase = .lit ∧ level = true)
  (equal → l.sample level = { l with runCount := 0 })
    ∧ (opposite → l.runCount = 0 → l.sample level = { l with runCount := 1, runFirst := l.tick })
    ∧ (opposite → l.runCount = 1 → l.sample level = { l with runCount := 2 })
    ∧ (opposite → l.runCount = 2 → l.sample level = { l with runCount := 3 })
    ∧ (opposite → l.runCount = 3 → l.sample level = l)
    ∧ (l.phase = .off ∨ l.phase = .blind → l.sample level = l)

/-! ## Terms of the statements: the Combining Table and Delivery -/

/-- The state with the entry `e` at an index as a merge leaves it: queued if it is WAITING with at most N/4 unresolved
positions, else as it is (R61). -/
def gated (i : Nat) (e : Entry) (s : State) : State :=
  if e.state = .waiting ∧ e.accumulators.count 0 ≤ (16 * e.identity.length + 40) / 4 then
    { s with table := s.table.set i (some { e with state := .queued }), decodeQueue := s.decodeQueue ++ [i] }
  else { s with table := s.table.set i (some e) }

/-- The entry that a NEW copy fills at a time (R58). -/
def freshEntry (r : CopyRecord) (now : Millis) (windowCode : Nat) : Entry where
  state := .waiting
  recheck := false
  final := false
  key := r.header.key
  identity := r.header.identity
  accumulators := r.confidences
  combined := 1
  heard := 1
  relayers := [r.header.relayer]
  bestHops := r.header.hops
  deadline := now + BitVec.ofNat 32 (10 * windowCode)

/-- The bookkeeping of a MATCH copy (R59). -/
def heardOnce (h : Header) (e : Entry) : Entry :=
  { e with
    heard := if e.heard < 255 then e.heard + 1 else 255
    relayers := if h.relayer ∉ e.relayers ∧ e.relayers.length < 4 then e.relayers ++ [h.relayer] else e.relayers
    bestHops := if e.bestHops < h.hops then h.hops else e.bestHops }

/-- A sum held within -63 and +63 (R60). -/
def withinSixtyThree (v : Int) : Int := if 63 < v then 63 else if v < -63 then -63 else v

/-- The merge of a MATCH copy's confidences (R60). -/
def mergedWith (confidences : List Int) (e : Entry) : Entry :=
  { e with
    accumulators := List.zipWith (fun a c => withinSixtyThree (a + c)) e.accumulators confidences
    combined := e.combined + 1
    recheck := if e.state = .decoding then true else e.recheck }

/-- Conditions 1 to 5 of R110. -/
abbrev RelayAsked (s : State) (e : Entry) : Prop :=
  s.station.state = .running ∧ s.cfg.relayEnable = true ∧ 1 ≤ e.bestHops
    ∧ ¬ (e.identity.kind = .station ∧ e.identity.destination = s.cfg.stationId)
    ∧ ∀ place ∈ s.relays, place.map RelayItem.key ≠ some e.key

/-- The relay item made for a recovered message (R112). -/
def madeRelay (e : Entry) (slot : Nat) (deadline : Millis) : RelayItem :=
  ⟨e.key, e.identity, e.bestHops - 1, slot, .holding, deadline, e.heard, 0⟩

/-- The Inbox message made of a recovered message (R102). -/
def madeMessage (e : Entry) (d : Decode) : Message :=
  ⟨e.key, e.identity, e.bestHops, e.combined, e.heard, e.relayers, d.unresolved, d.slot⟩

/-! ## Terms of the statements: the host port -/

/-- Whether every field of a CONFIGURE is in its range (R160, R161, R181). -/
def ConfigInRange (p : ConfigureParams) : Prop :=
  let groups := [p.group1, p.group2, p.group3, p.group4].take p.groupCount.toNat
  1 ≤ p.stationId.toNat ∧ p.stationId.toNat ≤ 254 ∧ p.groupCount.toNat ≤ 4
    ∧ (∀ g ∈ groups, 1 ≤ g.toNat ∧ g.toNat ≤ 254 ∧ g ≠ p.stationId) ∧ groups.Nodup
    ∧ p.unitCode.toNat ≤ 2 ∧ p.relayEnable.toNat ≤ 1 ∧ 2 ≤ p.threshold.toNat ∧ p.threshold.toNat ≤ 8
    ∧ 1 ≤ p.holdOffWindow.toNat ∧ 1 ≤ p.defaultHops.toNat ∧ p.defaultHops.toNat ≤ 7
    ∧ 1 ≤ p.windowCode.toNat ∧ 4 ≤ p.deferralLimit.toNat ∧ p.deferralLimit.toNat ≤ 15

/-- Whether every parameter of a SUBMIT is valid at a station of the given id (R146, R181). -/
def SubmitInRange (p : SubmitParams) (own : Byte) : Prop :=
  ((p.kind = 0 ∧ 1 ≤ p.destination.toNat ∧ p.destination.toNat ≤ 254 ∧ p.destination ≠ own)
      ∨ (p.kind = 1 ∧ 1 ≤ p.destination.toNat ∧ p.destination.toNat ≤ 254) ∨ p.kind = 2)
    ∧ 1 ≤ p.repeats.toNat ∧ p.repeats.toNat ≤ 3 ∧ p.hops.toNat ≤ 7
    ∧ 1 ≤ p.payload.length ∧ p.payload.length ≤ 48

/-- The host completes the request `r` in the open transaction: what has been received begins it and something of it is
still to come (R173; log 7). -/
def Completes (r : Request) (s : State) : Prop :=
  s.port.phase = .request ∧ requestComplete r.bytes = true ∧ parseRequest r.bytes = r
    ∧ ∃ rest, rest ≠ [] ∧ r.bytes = s.port.request ++ rest

/-- The state once a request's last byte is in, before the take: in phase REQUEST MISO shows 00h (R172, R173). -/
def received (bytes : List Byte) (s : State) : State :=
  { s with port := { s.port with request := bytes, bitCount := 0, byteDone := none, miso := some false } }

/-- The state once a response is fixed: status, length, body, and what its final byte commits (R173, R176). -/
def answered (st : Status) (body : List Byte) (commit : Commit) (s : State) : State :=
  { s with
    port :=
      { s.port with
        phase := .response
        response := some ⟨st.code :: BitVec.ofNat 8 body.length :: body, commit, true⟩
        position := 0 } }

/-- The state once a response has been clocked out to its final byte, before that byte's effect: phase TRAILING, MISO
at the byte's last bit (R172, R176). -/
def clockedOut (r : Response) (s : State) : State :=
  { s with
    port :=
      { s.port with
        phase := .trailing
        position := r.bytes.length
        bitCount := 0
        byteDone := none
        miso := some ((r.bytes.getLastD 0).getLsbD 0) } }

/-- A sequence number as two bytes, low byte first, bits 12 to 15 of the pair 0 (R182). -/
def sequenceBytes (v : Sequence) : List Byte := [v.extractLsb' 0 8, (v.extractLsb' 8 4).setWidth 8]

/-- A 16-bit number as two bytes, low byte first (R182). -/
def wordBytes (v : BitVec 16) : List Byte := [v.extractLsb' 0 8, v.extractLsb' 8 8]

/-- The 18 fields and the payload of an OK COLLECT_MESSAGE response (R182). -/
def messageRecord (m : Message) (payload : List Byte) : List Byte :=
  [m.key.origin, m.key.session.setWidth 8] ++ sequenceBytes m.key.sequence
    ++ [match m.identity.kind with
        | .station => 0
        | .group => 1
        | .all => 2,
      m.identity.destination, if m.identity.urgent then 1 else 0, BitVec.ofNat 8 m.hops,
      BitVec.ofNat 8 m.combined, BitVec.ofNat 8 m.heard, BitVec.ofNat 8 m.relayers.length,
      m.relayers.getD 0 0, m.relayers.getD 1 0, m.relayers.getD 2 0, m.relayers.getD 3 0]
    ++ wordBytes (BitVec.ofNat 16 m.unresolved) ++ [BitVec.ofNat 8 m.identity.length] ++ payload

/-- The 15 bytes of the status record (R177, R182). -/
def statusRecord (s : State) : List Byte :=
  [match s.station.state with
    | .unconfigured => 0
    | .listening => 1
    | .running => 2,
    s.station.session.setWidth 8] ++ sequenceBytes s.station.nextSequence
    ++ [BitVec.ofNat 8 s.inbox.length, BitVec.ofNat 8 s.reports.length, BitVec.ofNat 8 s.outbox.length,
      BitVec.ofNat 8 (s.relays.countP fun r => r.isSome), BitVec.ofNat 8 (s.table.countP fun e => e.isSome),
      BitVec.ofNat 8 s.history.length,
      BitVec.ofNat 8 (s.slots.countP fun sl => sl.byInbox || sl.byRelay || sl.byOrigin || sl.byDecoder),
      if s.line.medium = .idle then 0 else 1,
      match s.transmit.controller with
      | .idle => 0
      | .backoff _ _ _ => 1
      | .sending _ _ _ _ => 2,
      if s.decoder = none then 0 else 1,
      (if s.flags.inboxOverflow then 1#8 else 0) + (if s.flags.selfConflict then 2#8 else 0)
        + (if s.flags.keyConflict then 4#8 else 0) + (if s.flags.scheduleFull then 8#8 else 0)]

/-- The 17 counters, two bytes each, in the order of R182. -/
def countersRecord (c : Counters) : List Byte :=
  [c.copiesAccepted, c.headersRejected, c.copiesTruncated, c.duplicates, c.echoes, c.selfConflicts, c.keyConflicts,
    c.entriesEvicted, c.entriesExpired, c.decodesFailed, c.messagesDelivered, c.inboxOverflows, c.relaysSent,
    c.relaysSuppressed, c.relaysRefused, c.originsSent, c.transmissionsAbandoned].flatMap wordBytes

/-! ## Terms of the statements: which commands have an effect -/

/-- The pins as a command's own edge leaves them (log 9). -/
def edgePins (c : Instr) (p : Pins) : Pins :=
  match c with
  | .rstnReset => { p with rstn := false }
  | .rstnRelease => { p with rstn := true }
  | .risingEdge => { p with demodIn := true }
  | .fallingEdge _ => { p with demodIn := false }
  | .csnFall => { p with csn := false }
  | .csnRise => { p with csn := true }
  | _ => p

/-- The level of CSn that the Host Port last saw, after a command (log 9). -/
def edgeSeen (c : Instr) (seen : Bool) : Bool :=
  match c with
  | .csnFall => false
  | .csnRise => true
  | _ => seen

/-- The condition under which a command's event can happen, by its rule (log 3). -/
def Enabled (c : Instr) (s : State) : Prop :=
  match c with
  | .powerOn => True
  | .rstnReset => True
  | .rstnRelease => True
  | .risingEdge => s.line.phase = .dark
  | .fallingEdge _ => s.line.phase = .lit
  | .silence => s.line.phase = .dark ∧ s.line.silenceRaised = false
  | .blindingEnd => s.line.phase = .blind ∧ s.line.blindingDeadline ≠ none
  | .slotEnd => s.transmit.view = .idle ∧ ∃ g n t, s.transmit.controller = .backoff g (n + 1) t
  | .backoffCompletion => s.transmit.view = .idle ∧ ∃ g t, s.transmit.controller = .backoff g 0 t
  | .handOver => ∃ g h b, s.transmit.controller = .sending g h b .pending
  | .transmissionComplete => ∃ g h b e t, s.transmit.controller = .sending g h b (.accepted e t)
  | .grant => s.transmit.controller = .idle ∧ ∃ g, isReady s g
  | .decoderTake => s.decoder = none ∧ ∃ i rest e, s.decodeQueue = i :: rest ∧ entryAt s i = some e
  | .decodeCompletion => s.decoder ≠ none
  | .entryDeadline i => ∃ e, entryAt s i = some e ∧ e.final = false
  | .relayHoldOffExpiry i => ∃ r, relayAt s i = some r ∧ r.state = .holding
  | .originHoldOffExpiry i => ∃ o d, s.outbox[i]? = some o ∧ o.state = .holding d
  | .echoDeadline i => ∃ o d, s.outbox[i]? = some o ∧ o.state = .echoWait d
  | .listenExpiry => s.station.state = .listening ∧ s.station.listenDeadline ≠ none
  | .csnFall => s.port.csnSeen = true
  | .csnRise => True
  | .byteComplete _ => True
  | .configure p => Completes (.configure p) s
  | .submit p => Completes (.submit p) s
  | .collectMessage => Completes .collectMessage s
  | .collectReport => Completes .collectReport s
  | .readStatus => Completes .readStatus s
  | .readCounters b => Completes (.readCounters b) s
  | .clearEvents m => Completes (.clearEvents m) s
  | .restart => Completes .restart s
  | .malformedRequest bs => Completes (.malformed bs) s
  | .collectMessageFinalByte =>
    s.port.phase = .response ∧ ∃ r, s.port.response = some r ∧ r.commit = .inboxHead
  | .collectReportFinalByte =>
    s.port.phase = .response ∧ ∃ r, s.port.response = some r ∧ r.commit = .reportHead
  | .readCountersFinalByte =>
    s.port.phase = .response ∧ ∃ r, s.port.response = some r ∧ r.commit = .clearCounters

end Sys2Proof.Machine
end

