-- ==== Sys2Proof/Certificates/Slice0/Obligations.lean ====
section
/-! DEFINITION. The statements for the provers, in the order of OBLIGATIONS.json. -/

open Sys2Proof Sys2Proof.Machine

/-! ## The machine -/

/-- A step with a command at the front of the queue is that command on the state with the queue's rest. -/
def Obligations.StepTakesFrontCommand : Prop :=
  ∀ (c : Instr) (rest : List Instr) (s : State),
    step { s with pending := c :: rest } = exec c { s with pending := rest }

/-- A step on an empty queue takes the one event that is due, or one of several, or lets one REFCLK period pass where
none is due. The model's choice: log 1 and log 4. An event is due exactly under its condition and at its moment, on a
held part RSTn's own alone (R170; what waits at a pin, a deadline long past, and what only the host sends: logs 9,
10, 17 and 7; the tick after an end marker: log 22). In a REFCLK period the pins take their next levels, the timers
run, at a new tick the edge filter takes DEMOD_IN, and the port samples SCK and MOSI, in this order (log 1; logs 8
and 9 for the pins, log 16 for the moment of the sample); a held part only has its pins and the count of periods
move. The edge filter is that of R19. -/
def Obligations.StepWithoutCommand : Prop :=
  (∀ s : State, s.pending = [] →
    (due s = [] → step s = .next (clockPeriod s))
    ∧ (due s ≠ [] → ∃ c ∈ due s, step s = exec c { s with choiceCount := s.choiceCount + 1 }))
  ∧ (∀ (c : Instr) (s : State), c ∈ due s ↔ DueNow c s)
  ∧ (∀ s : State,
    let s1 : State := { s with pins := s.inputs.headD s.pins, inputs := s.inputs.tail }
    let s2 := advance 1 s1
    let s3 : State := if s2.line.tick = s1.line.tick then s2 else { s2 with line := s2.line.sample s1.pins.demodIn }
    (s.station.held = true → clockPeriod s = { s1 with refclk := s.refclk + 1 })
    ∧ (s.station.held = false → clockPeriod s = { s3 with port := s3.port.sample s1.pins }))
  ∧ ∀ (l : Line) (level : Bool), FiltersEdges l level

/-- Every command answers a next state in every state, and leaves the queue, the pins' future levels and the count of
free choices as they are; SILENCE alone may move the count of free orders. The model's choice: a command whose event
cannot happen still answers a next state (log 3), and the queue, the future levels and the counts are the model's own
fields (logs 1, 9, 4 and 21). Of the manual it takes only that each row of the table is one whole step. -/
def Obligations.EveryCommandCompletes : Prop :=
  ∀ (c : Instr) (s : State), ∃ t, exec c s = .next t
    ∧ t.pending = s.pending ∧ t.inputs = s.inputs ∧ t.choiceCount = s.choiceCount
    ∧ (c ≠ .silence → t.orderCount = s.orderCount)

/-- A command whose event cannot happen in the present state has no effect but the level of its own pin. The model's
choice: log 3. -/
def Obligations.UnmetConditionsDoNothing : Prop :=
  ∀ (c : Instr) (s : State), s.station.held = false → ¬ Enabled c s →
    exec c s = .next (settleAttn
      { s with pins := edgePins c s.pins, port := { s.port with csnSeen := edgeSeen c s.port.csnSeen } })

/-- What n REFCLK periods do on a part that RSTn does not hold: the millisecond timer, the tick time, the space and
mark timers, the slot timer and the stream of a copy run, LED_OUT follows the stream, and nothing else moves (R17,
R18, R20, R24, R27, R28, R130, R139, R163). The model's choice: over the n periods the pins are neither sampled nor
any event taken, though R17 and R19 sample DEMOD_IN at every tick (log 2; for one period, log 1). No tick ends
without a tick base (R17). The slot timer stands at 64 until the end of the slot is taken (log 10); that it counts a
tick as it ends, the tick of a grant within it whole, is the model's choice (log 24). The stream keeps the granted
item, its header and its body check, begins each element as the one before it ends, and stays at its end; that its
position is the element being sent, up to the tick after the end marker, is the model's choice (log 22). -/
def Obligations.TimeRunsByPeriods : Prop :=
  (∀ (n : Nat) (s : State), s.station.held = false →
    let p := s.cfg.tickPeriods
    let k := if s.line.phase = .off then 0 else (s.line.tickPhase + n) / p
    (n = 0 → advance n s = s)
    ∧ (s.cfg.unitCode = 0 → p = 4) ∧ (s.cfg.unitCode = 1 → p = 8) ∧ (s.cfg.unitCode = 2 → p = 16)
    ∧ (0 < n → ∃ (after : Controller) (led : Bool),
      advance n s =
        { s with
          refclk := s.refclk + n
          station :=
            { s.station with
              milliTimer := s.station.milliTimer + BitVec.ofNat 32 ((s.station.milliPhase + n) / 16000)
              milliPhase := (s.station.milliPhase + n) % 16000 }
          line :=
            { s.line with
              tick := s.line.tick + k
              tickPhase := if s.line.phase = .off then s.line.tickPhase else (s.line.tickPhase + n) % p
              spaceTimer := if s.line.phase = .dark then min 96 (s.line.spaceTimer + k) else s.line.spaceTimer
              markTimer := if s.line.phase = .lit then min 255 (s.line.markTimer + k) else s.line.markTimer
              ledOut := led }
          transmit := { s.transmit with controller := after } }
      ∧ (s.transmit.controller = .idle → after = .idle ∧ led = false)
      ∧ (∀ g c u, s.transmit.controller = .backoff g c u →
        after = .backoff g c (if s.transmit.view = .idle ∧ 0 < c then min 64 (u + k) else u) ∧ led = false)
      ∧ (∀ g h b, s.transmit.controller = .sending g h b .pending →
        after = .sending g h b .pending ∧ led = false)
      ∧ (∀ g h b e j, s.transmit.controller = .sending g h b (.accepted e j) →
        let c := txCopy s g h b
        let now := streamAt c e j k
        after = .sending g h b (.accepted now.1 now.2) ∧ led = carrierAt c now)))
  ∧ ∀ c : TxCopy, StreamMoves c

/-- Letting time run to a moment that is not past ends at that moment: a tick time, a deadline of the millisecond
timer, a REFCLK time; to a moment already past, and to a deadline already reached, no time passes (log 2; which
deadlines are reached, by R163: log 17). Of two deadlines to come the nearer is the earlier, a deadline reached is
earlier than one to come, and of two reached the one further behind is the earlier (R163; log 17). -/
def Obligations.TimeReachesTheMoment : Prop :=
  (∀ s : State, s.station.held = false →
    (∀ T, s.line.phase ≠ .off → s.line.tickPhase < s.cfg.tickPeriods → s.line.tick ≤ T →
      (runToTick T s).line.tick = T)
    ∧ (∀ d, s.station.milliPhase < 16000 → ¬ Reached s.station.milliTimer d →
      (runToMilli d s).station.milliTimer = d ∧ (runToMilli d s).station.milliPhase = 0)
    ∧ (∀ p, s.refclk ≤ p → (runToPeriod p s).refclk = p))
  ∧ (∀ s : State,
    (∀ T, T ≤ s.line.tick → runToTick T s = s)
    ∧ (∀ d, Reached s.station.milliTimer d → runToMilli d s = s)
    ∧ (∀ p, p ≤ s.refclk → runToPeriod p s = s))
  ∧ ∀ now d e : Millis,
    (¬ Reached now d → ¬ Reached now e →
      (deadlineRank now d < deadlineRank now e ↔ (d - now).toNat < (e - now).toNat))
    ∧ (Reached now d → ¬ Reached now e → deadlineRank now d < deadlineRank now e)
    ∧ (Reached now d → Reached now e →
      (deadlineRank now d < deadlineRank now e ↔ (now - e).toNat < (now - d).toNat))

/-! ## Power-on and RSTn -/

/-- POWER_ON, and RSTN_RESET on a part not yet held, bring every block to its reset state with a freshly drawn
session tag; the queue and the levels of the pins stay (R170 and the rules it names). -/
def Obligations.ResetClearsEveryBlock : Prop :=
  ∀ (c : Instr) (s : State), c = .powerOn ∨ (c = .rstnReset ∧ s.station.held = false) →
    ∃ t, exec c s = .next t
      ∧ t.pending = s.pending ∧ t.pins = edgePins c s.pins ∧ t.drawCount = s.drawCount + 1
      ∧ (∃ session, t.station = ⟨.unconfigured, none, session, 0, none, 0, 0, !t.pins.rstn⟩)
      ∧ (∀ k, t.counters.get k = 0) ∧ t.flags = ⟨false, false, false, false⟩
      ∧ t.line.phase = .off ∧ t.line.runCount = 0 ∧ t.line.markTimer = 0 ∧ t.line.spaceTimer = 0
      ∧ t.line.silenceRaised = false ∧ t.line.medium = .busy ∧ t.line.blindingDeadline = none
      ∧ t.line.ledOut = false ∧ t.line.txact = false
      ∧ t.assembler = { emptyCopy with phase := .hunt }
      ∧ t.table = List.replicate 8 none ∧ t.decodeQueue = [] ∧ t.decoder = none ∧ t.history = []
      ∧ t.slots = List.replicate 32 ⟨[], false, false, false, false⟩ ∧ t.inbox = []
      ∧ t.relays = List.replicate 15 none ∧ t.outbox = [] ∧ t.reports = []
      ∧ t.transmit = ⟨.idle, .busy⟩
      ∧ t.port.phase = .idle ∧ t.port.request = [] ∧ t.port.response = none ∧ t.port.attn = false
      ∧ t.port.miso = none

/-- While RSTn holds the part in reset, a command other than POWER_ON and RSTN_RELEASE moves only the level of its
own pin. RSTN_RELEASE ends the hold: the millisecond timer starts from 0 and the Host Port waits in IDLE for a
falling edge of CSn; everything else stays as the reset left it. On a part not held only the pin moves (R170, R171). -/
def Obligations.HoldAndRelease : Prop :=
  ∀ s : State,
    (∀ c : Instr, s.station.held = true → c ≠ .powerOn → c ≠ .rstnRelease →
      exec c s = .next
        { s with pins := edgePins c s.pins, port := { s.port with csnSeen := edgeSeen c s.port.csnSeen } })
    ∧ (s.station.held = true → ∃ t, exec .rstnRelease s = .next t
      ∧ t.station = { s.station with held := false, milliTimer := 0, milliPhase := 0 }
      ∧ t.port.phase = .idle ∧ t.port.request = [] ∧ t.port.response = none ∧ t.port.attn = false
      ∧ t.port.csnSeen = s.pins.csn ∧ t.port.miso = none
      ∧ t = { s with pins := { s.pins with rstn := true }, station := t.station, port := t.port })
    ∧ (s.station.held = false → exec .rstnRelease s = .next { s with pins := { s.pins with rstn := true } })

/-! ## Marks and edges -/

/-- The class of a mark by its length in ticks, and the soft value and confidence of a data mark. -/
def Obligations.MarkClassesAndSoftValues : Prop :=
  ∀ t : Nat, t ≤ 255 →
    (t ≤ 7 → classifyMark t = .erasure) ∧ (40 ≤ t → t ≤ 55 → classifyMark t = .endMarker)
    ∧ (56 ≤ t → t ≤ 71 → classifyMark t = .startMarker) ∧ (72 ≤ t → classifyMark t = .erasure)
    ∧ (8 ≤ t → t ≤ 39 → ∃ soft, classifyMark t = .dataSymbol soft
      ∧ (8 ≤ t → t ≤ 17 → soft = 0 ∧ confidenceOf soft = -7)
      ∧ (18 ≤ t → t ≤ 20 → soft = 1 ∧ confidenceOf soft = -5)
      ∧ (21 ≤ t → t ≤ 22 → soft = 2 ∧ confidenceOf soft = -3)
      ∧ (23 ≤ t → t ≤ 24 → soft = 3 ∧ confidenceOf soft = -1)
      ∧ (25 ≤ t → t ≤ 26 → soft = 4 ∧ confidenceOf soft = 1)
      ∧ (27 ≤ t → t ≤ 28 → soft = 5 ∧ confidenceOf soft = 3)
      ∧ (29 ≤ t → t ≤ 31 → soft = 6 ∧ confidenceOf soft = 5)
      ∧ (32 ≤ t → t ≤ 39 → soft = 7 ∧ confidenceOf soft = 7))

/-- RISING_EDGE in DARK, with no backoff to interrupt: the mark timer runs from the edge's time stamp and stands at 3
at the acceptance, the phase is LIT and the medium BUSY, and a change of the medium reaches the Transmit Controller's
view; nothing else changes (R19, R20, R25, R26). The model's choice: where no run has begun the next tick is taken as
the run's first, and time runs to the third sample (log 2). That the edge drops for good a silence of the space it
ends, due on the way or overdue, is the model's choice (log 25). -/
def Obligations.RisingEdgeStartsMark : Prop :=
  ∀ s : State, s.station.held = false → s.line.phase = .dark →
    (s.line.medium = .idle → ∀ g c u, s.transmit.controller ≠ .backoff g c u) →
    exec .risingEdge s = .next (settleAttn
        { afterRise s with
          line := { (afterRise s).line with medium := .busy }
          transmit :=
            { (afterRise s).transmit with
              view := if s.line.medium = .idle then .busy else s.transmit.view } })
      ∧ (s.line.tick ≤ riseStamp s + 2 → s.line.tickPhase < s.cfg.tickPeriods →
        (afterRise s).line.markTimer = 3 ∧ (afterRise s).line.tick = riseStamp s + 2)

/-- RISING_EDGE on an IDLE medium during a backoff: the partial slot is lost, the count stays, the view is BUSY and
the granted item takes one deferral with the limit test, by which it may be abandoned (R131, R132). The model's
choice: where no run has begun the next tick is taken as the run's first, and time runs to the third sample (log 2).
That the edge drops for good a silence of the space it ends, due on the way or overdue, is the model's choice (log
25). -/
def Obligations.RisingEdgeDefersBackoff : Prop :=
  ∀ (s : State) (g : Granted) (c u : Nat), s.station.held = false → s.line.phase = .dark → s.line.medium = .idle →
    s.transmit.controller = .backoff g c u →
    ∃ t, exec .risingEdge s = .next (settleAttn t)
      ∧ Defers g
          { afterRise s with
            line := { (afterRise s).line with medium := .busy }
            transmit := ⟨.backoff g c 0, .busy⟩ } t

/-- FALLING_EDGE outside a copy: in HUNT and in TAIL a start marker begins a copy in an empty Copy Buffer, an end
marker in TAIL returns to HUNT, and any other mark leaves the assembler as it is (R20, R37, R47). The time stamp of
the edge where no run has begun, from the command's operand, and letting time run to the third sample are the model's
choice (logs 6 and 2). -/
def Obligations.MarksOutsideCopies : Prop :=
  ∀ (n : BitVec 8) (s : State), s.station.held = false → s.line.phase = .lit →
    s.assembler.phase = .hunt ∨ s.assembler.phase = .tail →
    (fallEvent n s = .startMarker →
      exec (.fallingEdge n) s = .next (settleAttn { afterFall n s with assembler := emptyCopy }))
    ∧ (fallEvent n s = .endMarker →
      exec (.fallingEdge n) s = .next (settleAttn
        { afterFall n s with assembler := { s.assembler with phase := .hunt } }))
    ∧ (fallEvent n s ≠ .startMarker → fallEvent n s ≠ .endMarker →
      exec (.fallingEdge n) s = .next (settleAttn (afterFall n s)))

/-- FALLING_EDGE in HEADER before the 192nd symbol: a symbol's confidence is added to its header sum; a run of 24
erasures, an end marker and a start marker end the copy with its header rejected, the start marker beginning a new
copy (R38, R40, R41, R42). The time stamp of the edge where no run has begun, from the command's operand, and letting
time run to the third sample are the model's choice (logs 6 and 2). -/
def Obligations.HeaderSymbolsAndEarlyEnds : Prop :=
  ∀ (n : BitVec 8) (s : State), s.station.held = false → s.line.phase = .lit → s.assembler.phase = .header →
    s.assembler.headerSums.length = 64 →
    (∀ v e, symbolOf (fallEvent n s) = some (v, e) → s.assembler.headerIndex + 1 < 192 →
      (e = false ∨ s.assembler.erasureRun + 1 < 24 →
        exec (.fallingEdge n) s = .next (settleAttn
          { afterFall n s with assembler := headerTaken s.assembler v e }))
      ∧ (e = true → s.assembler.erasureRun + 1 = 24 →
        exec (.fallingEdge n) s = .next (settleAttn (headerLost (headerTaken s.assembler v e) (afterFall n s)))))
    ∧ (fallEvent n s = .endMarker →
      exec (.fallingEdge n) s = .next (settleAttn (headerLost s.assembler (afterFall n s))))
    ∧ (fallEvent n s = .startMarker →
      exec (.fallingEdge n) s = .next (settleAttn
        { headerLost s.assembler (afterFall n s) with assembler := emptyCopy }))

/-- FALLING_EDGE with the 192nd header symbol: the header is decided over the 64 sums, whatever the erasure run;
accepted, it is stored, the body index is 0 and the phase BODY; rejected, HEADERS_REJECTED counts it and the phase is
HUNT (R39, R41). The decision: a sum of 0 rejects the header; else a positive sum is a 1 and a negative one a 0, and
the eight bytes they spell are accepted or not by R7 (R5, R6). The time stamp of the edge where no run has begun,
from the command's operand, and letting time run to the third sample are the model's choice (logs 6 and 2). -/
def Obligations.HeaderDecidedAtLastSymbol : Prop :=
  (∀ (n : BitVec 8) (s : State) (v : Int) (e : Bool), s.station.held = false → s.line.phase = .lit →
    s.assembler.phase = .header → s.assembler.headerSums.length = 64 → s.assembler.headerIndex = 191 →
    symbolOf (fallEvent n s) = some (v, e) →
    let a := headerTaken s.assembler v e
    (∀ h, decideHeader a.headerSums = some h →
      exec (.fallingEdge n) s = .next (settleAttn
        { afterFall n s with assembler := { a with phase := .body, decided := some h, bodyIndex := 0 } }))
    ∧ (decideHeader a.headerSums = none →
      exec (.fallingEdge n) s = .next (settleAttn (headerLost a (afterFall n s)))))
  ∧ ∀ sums : List Int, sums.length = 64 →
    (0 ∈ sums → decideHeader sums = none)
    ∧ (0 ∉ sums → ∀ bytes : List Byte, bytes.length = 8 →
      (∀ i v, sums[i]? = some v → (bytes.getD (i / 8) 0).getLsbD (i % 8) = decide (0 < v)) →
      decideHeader sums = acceptHeader bytes)

/-- FALLING_EDGE with a body symbol that ends no copy: its confidence is stored at coded position 8(j mod M) + j div
M of the Copy Buffer, the index and the erasure run move on, and nothing else changes (R43). An erasure that finds
the erasure run already at 24, carried over from the header, is stored, and the copy ends TRUNCATED with its verdict:
the model's inference (log 12). The time stamp of the edge where no run has begun, from the command's operand, and
letting time run to the third sample are the model's choice (logs 6 and 2). -/
def Obligations.BodySymbolsAreStored : Prop :=
  ∀ (n : BitVec 8) (s : State) (h : Header) (v : Int) (e : Bool), s.station.held = false → s.line.phase = .lit →
    s.assembler.phase = .body → s.assembler.decided = some h → symbolOf (fallEvent n s) = some (v, e) →
    s.assembler.bodyIndex + 1 < 16 * h.identity.length + 40 →
    let a := bodyTaken h.identity.length s.assembler v e
    (e = false ∨ s.assembler.erasureRun + 1 < 24 →
      exec (.fallingEdge n) s = .next (settleAttn { afterFall n s with assembler := a }))
    ∧ (e = true → s.assembler.erasureRun = 24 →
      exec (.fallingEdge n) s = .next (settleAttn (copyEnded .hunt h
        { afterFall n s with counters := s.counters.bump .copiesTruncated, assembler := a })))

/-- FALLING_EDGE that ends a copy in BODY: the Nth symbol makes it COMPLETE and the phase TAIL; a 24th erasure in a
row (itself stored) or an end marker makes it TRUNCATED and the phase HUNT; a start marker makes it TRUNCATED and
begins a new copy. Its verdict is given on the Copy Buffer as it then stands (R44, R45, R46, R48). The time stamp of
the edge where no run has begun, from the command's operand, and letting time run to the third sample are the model's
choice (logs 6 and 2). -/
def Obligations.CopyEndsWithVerdict : Prop :=
  ∀ (n : BitVec 8) (s : State) (h : Header), s.station.held = false → s.line.phase = .lit →
    s.assembler.phase = .body → s.assembler.decided = some h →
    let truncated : State := { afterFall n s with counters := s.counters.bump .copiesTruncated }
    (∀ v e, symbolOf (fallEvent n s) = some (v, e) →
      let a := bodyTaken h.identity.length s.assembler v e
      (s.assembler.bodyIndex + 1 = 16 * h.identity.length + 40 →
        exec (.fallingEdge n) s = .next (settleAttn (copyEnded .tail h { afterFall n s with assembler := a })))
      ∧ (s.assembler.bodyIndex + 1 < 16 * h.identity.length + 40 → e = true → s.assembler.erasureRun + 1 = 24 →
        exec (.fallingEdge n) s = .next (settleAttn (copyEnded .hunt h { truncated with assembler := a }))))
    ∧ (fallEvent n s = .endMarker →
      exec (.fallingEdge n) s = .next (settleAttn (copyEnded .hunt h truncated)))
    ∧ (fallEvent n s = .startMarker →
      exec (.fallingEdge n) s = .next (settleAttn { copyEnded .hunt h truncated with assembler := emptyCopy }))

/-! ## Verdicts -/

/-- The verdict of a copy is that of the first test of R49 that holds. -/
def Obligations.VerdictOrder : Prop :=
  ∀ (s : State) (h : Header),
    (h.key.origin = s.cfg.stationId → h.key.session = s.station.session → verdictOf s h = .echo)
    ∧ (h.key.origin = s.cfg.stationId → h.key.session ≠ s.station.session → verdictOf s h = .selfConflict)
    ∧ (h.key.origin ≠ s.cfg.stationId →
      (h.key ∈ s.history → verdictOf s h = .duplicate)
      ∧ (h.key ∉ s.history →
        (∀ i e, entryAt s i = some e → e.key = h.key → (∀ j f, j < i → entryAt s j = some f → f.key ≠ h.key) →
          (e.identity = h.identity → verdictOf s h = .matched i)
          ∧ (e.identity ≠ h.identity → verdictOf s h = .keyConflict))
        ∧ ((∀ i e, entryAt s i = some e → e.key ≠ h.key) → verdictOf s h = .new)))

/-- What a verdict does with a copy that reaches no entry: COPIES_ACCEPTED and its own counter go up, an ECHO is
counted by every origin item of its sequence up to 15, a DUPLICATE by the relay item of its key unless that is
SENDING, a conflict sets its flag; nothing else changes (R50, R51, R114, R152). -/
def Obligations.CopiesThatReachNoEntry : Prop :=
  ∀ (s : State) (r : CopyRecord),
    (verdictOf s r.header = .echo →
      giveVerdict r s =
        { s with
          counters := (s.counters.bump .copiesAccepted).bump .echoes
          outbox := s.outbox.map fun o =>
            if o.key.sequence = r.header.key.sequence then { o with echoes := min 15 (o.echoes + 1) } else o })
    ∧ (verdictOf s r.header = .selfConflict →
      giveVerdict r s =
        { s with
          counters := (s.counters.bump .copiesAccepted).bump .selfConflicts
          flags := { s.flags with selfConflict := true } })
    ∧ (verdictOf s r.header = .duplicate →
      giveVerdict r s =
        { s with
          counters := (s.counters.bump .copiesAccepted).bump .duplicates
          relays := s.relays.map (Option.map fun item =>
            if item.key = r.header.key ∧ (∀ t, item.state ≠ .sending t) then
              { item with heard := min 255 (item.heard + 1) } else item) })
    ∧ (verdictOf s r.header = .keyConflict →
      giveVerdict r s =
        { s with
          counters := (s.counters.bump .copiesAccepted).bump .keyConflicts
          flags := { s.flags with keyConflict := true } })

/-- A NEW copy takes the lowest FREE entry; with none FREE, the WAITING or QUEUED entry of the earliest deadline, the
lower index at a tie, is evicted for it, out of the Decode Queue and counted. The entry is filled from the copy and
gated at once (R56, R57, R58, R61). Which deadlines are reached, and so their order, is that of log 17. -/
def Obligations.NewCopyTakesAnEntry : Prop :=
  ∀ (s : State) (r : CopyRecord), verdictOf s r.header = .new →
    let e := freshEntry r s.station.milliTimer s.cfg.windowCode
    let s1 : State := { s with counters := s.counters.bump .copiesAccepted }
    (∀ i, s.table[i]? = some none → (∀ j, j < i → s.table[j]? ≠ some none) → giveVerdict r s = gated i e s1)
    ∧ (none ∉ s.table → (∃ i f, entryAt s i = some f ∧ f.state ≠ .decoding) →
      ∃ v f, entryAt s v = some f ∧ f.state ≠ .decoding
        ∧ (∀ j g, entryAt s j = some g → g.state ≠ .decoding →
          deadlineRank s.station.milliTimer f.deadline < deadlineRank s.station.milliTimer g.deadline
          ∨ deadlineRank s.station.milliTimer f.deadline = deadlineRank s.station.milliTimer g.deadline ∧ v ≤ j)
        ∧ giveVerdict r s =
          gated v e
            { s1 with
              counters := s1.counters.bump .entriesEvicted
              decodeQueue := s.decodeQueue.filter (fun j => j ≠ v) })

/-- A MATCH copy updates its entry's copies heard, relayer list and best hops; below 15 copies combined its
confidences are added, each sum held within -63 to +63, RECHECK is set in a DECODING entry and the gate applied; at
15 nothing more happens (R59, R60, R61). -/
def Obligations.MatchCopyMerges : Prop :=
  ∀ (s : State) (r : CopyRecord) (i : Nat) (e : Entry), verdictOf s r.header = .matched i → entryAt s i = some e →
    let s1 : State := { s with counters := s.counters.bump .copiesAccepted }
    let heard := heardOnce r.header e
    (e.combined < 15 → giveVerdict r s = gated i (mergedWith r.confidences heard) s1)
    ∧ (15 ≤ e.combined → giveVerdict r s = { s1 with table := s.table.set i (some heard) })

/-! ## Silence and blinding -/

/-- SILENCE in DARK, not yet raised in this space: the space timer stops at 96, the medium turns IDLE and the
Transmit Controller's view with it, and the Copy Assembler is in HUNT afterwards, a header rejected and a body
truncated with its verdict (R24, R25, R26, R40, R45, R47). Where the copy was in BODY and the medium BUSY, the
verdict and the checks that follow the report of IDLE fall at one instant, and a number of checks comes before the
verdict (R117, R118). A relay item whose backoff of 0 slots completes there, and whose key the copy's DUPLICATE
holds, is either counted, with its final check still to come; or put to the final check on the count without the
DUPLICATE, which then finds it SENDING or gone. Letting time run to the event's moment is the model's choice (log 2).
So is the form of the choice between the two orders: a free number of grants and completions taken before the verdict
(log 21). -/
def Obligations.SilenceEndsCopies : Prop :=
  ∀ s : State, s.station.held = false → s.station.state ≠ .unconfigured → s.line.phase = .dark →
    s.line.silenceRaised = false →
    let idle (t : State) : State :=
      { t with
        line := { (afterSilence s).line with medium := .idle }
        transmit :=
          { (afterSilence s).transmit with view := if s.line.medium = .busy then .idle else s.transmit.view } }
    let s1 := afterSilence s
    (s.assembler.phase = .hunt → exec .silence s = .next (settleAttn (idle s1)))
    ∧ (s.assembler.phase = .tail →
      exec .silence s = .next (settleAttn (idle { s1 with assembler := { s.assembler with phase := .hunt } })))
    ∧ (s.assembler.phase = .header → exec .silence s = .next (settleAttn (idle (headerLost s.assembler s1))))
    ∧ (∀ h, s.assembler.phase = .body → s.assembler.decided = some h →
      let lost (t : State) : State := copyEnded .hunt h { t with counters := t.counters.bump .copiesTruncated }
      (s.line.medium = .idle → exec .silence s = .next (settleAttn (idle (lost s1))))
      ∧ (s.line.medium = .busy →
        let s2 := { s1 with orderCount := s.orderCount + 1 }
        exec .silence s = .next (settleAttn (lost (takeChecks (Config.checksFirst s.orderCount) (idle s2))))
          ∧ ∀ i r u since, s.transmit.controller = .backoff (.relay i) 0 u → relayAt s i = some r →
            r.state = .contending since → r.key = h.key → verdictOf s h = .duplicate →
            ∃ t, exec .silence s = .next t
              ∧ relayAt t i =
                if Config.checksFirst s.orderCount = 0 then some { r with heard := min 255 (r.heard + 1) }
                else if s.cfg.threshold ≤ r.heard then none
                else some { r with state := .sending since }))

/-- BLINDING_END: from the deadline tick the receiver is DARK, that tick is the first of a space and of the edge
filter, and the medium and everything else stay as they are (R31). Letting time run to the event's moment is the
model's choice (log 2); that the deadline tick counts whole is log 16. -/
def Obligations.BlindingEndResumesReception : Prop :=
  ∀ (s : State) (d : Nat), s.station.held = false → s.line.phase = .blind → s.line.blindingDeadline = some d →
    let s1 := runToTick d s
    exec .blindingEnd s = .next (settleAttn
      { s1 with
        line :=
          { s1.line with
            phase := .dark
            runCount := if s.pins.demodIn then 1 else 0
            runFirst := s1.line.tick
            markTimer := 0
            spaceTimer := 1
            silenceRaised := false
            blindingDeadline := none } })

/-! ## The Transmit Controller -/

/-- The arbiter grants the READY item that comes first in the grant order: urgent, then the earlier ready time, then
an origin item before a relay item, then the lower index. -/
def Obligations.ArbiterFollowsGrantOrder : Prop :=
  ∀ s : State,
    (∀ g, isReady s g → (∀ o, isReady s o → o ≠ g → grantBefore s g o) → arbitrate s = some g)
    ∧ ((∃ g, isReady s g) →
      ∃ g, isReady s g ∧ (∀ o, isReady s o → o ≠ g → grantBefore s g o) ∧ arbitrate s = some g)
    ∧ ((∀ g, ¬ isReady s g) → arbitrate s = none)

/-- GRANT: the item the arbiter chooses becomes CONTENDING with its ready time kept, a backoff of 0 to 7 slots, or 0
to 3 if urgent, is drawn, and the slot timer is 0; on a BUSY view the item takes one deferral (R116, R127, R129,
R149). -/
def Obligations.GrantDrawsBackoff : Prop :=
  ∀ (s : State) (g : Granted) (since : Millis), s.station.held = false → s.transmit.controller = .idle →
    arbitrate s = some g → readyTime s g = since →
    ∃ (draw : Nat) (s1 t : State),
      draw < (if grantedUrgent s g then 4 else 8)
      ∧ s1 = { s with
          drawCount := s.drawCount + 1
          relays := s1.relays
          outbox := s1.outbox
          transmit := ⟨.backoff g draw 0, s.transmit.view⟩ }
      ∧ (∀ i, g = .relay i → s1.outbox = s.outbox ∧ ∃ r, relayAt s i = some r
        ∧ s1.relays = s.relays.set i (some { r with state := .contending since }))
      ∧ (∀ i, g = .origin i → s1.relays = s.relays ∧ ∃ o, s.outbox[i]? = some o
        ∧ s1.outbox = s.outbox.set i { o with state := .contending since })
      ∧ exec .grant s = .next (settleAttn t)
      ∧ (s.transmit.view = .idle → t = s1) ∧ (s.transmit.view = .busy → Defers g s1 t)

/-- SLOT_END: with the view IDLE and slots still to count, time runs to the slot's 64th tick, the count falls by one
and the slot timer is 0 again (R130). Letting time run to the event's moment is the model's choice (log 2). So is
that the tick of a grant within it counts whole toward the first slot (log 24). -/
def Obligations.SlotEndCountsDown : Prop :=
  ∀ (s : State) (g : Granted) (c u : Nat), s.station.held = false → s.transmit.view = .idle →
    s.transmit.controller = .backoff g (c + 1) u →
    let s1 := runToTick (s.line.tick + (64 - u)) s
    exec .slotEnd s = .next (settleAttn { s1 with transmit := ⟨.backoff g c 0, .idle⟩ })

/-- BACKOFF_COMPLETION: a relay item heard C times or more is suppressed and counted, and the controller is IDLE; any
other item becomes SENDING, its header built under this station's id, its body check fixed, and the copy is handed
over (R117, R133, R137, R138). -/
def Obligations.BackoffCompletionSendsOrSuppresses : Prop :=
  ∀ (s : State) (u : Nat), s.station.held = false → s.transmit.view = .idle →
    let header (k : Key) (i : Identity) (hops : Nat) := headerBytes ⟨k, i, s.cfg.stationId, hops⟩
    let check (k : Key) (i : Identity) (slot : Nat) := bodyCheck (identityBlock k i) (payloadAt s slot)
    (∀ i r, s.transmit.controller = .backoff (.relay i) 0 u → relayAt s i = some r →
      (s.cfg.threshold ≤ r.heard →
        exec .backoffCompletion s = .next (settleAttn (relayGone i r
          { s with counters := s.counters.bump .relaysSuppressed, transmit := ⟨.idle, .idle⟩ })))
      ∧ (r.heard < s.cfg.threshold → ∀ since, r.state = .contending since →
        exec .backoffCompletion s = .next (settleAttn
          { s with
            relays := s.relays.set i (some { r with state := .sending since })
            transmit :=
              ⟨.sending (.relay i) (header r.key r.identity r.hops) (check r.key r.identity r.slot) .pending,
                .idle⟩ })))
    ∧ (∀ i o since, s.transmit.controller = .backoff (.origin i) 0 u → s.outbox[i]? = some o →
      o.state = .contending since →
      exec .backoffCompletion s = .next (settleAttn
        { s with
          outbox := s.outbox.set i { o with state := .sending since }
          transmit :=
            ⟨.sending (.origin i) (header o.key o.identity o.hops) (check o.key o.identity o.slot) .pending,
              .idle⟩ }))

/-- HAND_OVER on an IDLE medium starts the transmission: TXACT high, the carrier lit, the receiver BLIND with its run
and timers discarded, the medium and the view BUSY, the element position at the start marker (R27, R28, R135). That
the present tick, in part past at a hand-over within it, is the start marker's first is the model's choice (log 23). -/
def Obligations.HandOverStartsTransmission : Prop :=
  ∀ (s : State) (g : Granted) (h : List Byte) (b : BodyCheck), s.station.held = false →
    s.transmit.controller = .sending g h b .pending → s.line.medium = .idle →
    exec .handOver s = .next (settleAttn
      { s with
        line :=
          { s.line with
            phase := .blind
            runCount := 0
            markTimer := 0
            spaceTimer := 0
            blindingDeadline := none
            medium := .busy
            ledOut := true
            txact := true }
        transmit := ⟨.sending g h b (.accepted .startMarker 0), .busy⟩ })

/-- HAND_OVER on a BUSY medium is refused: the item returns from SENDING to CONTENDING with its ready time, a fresh
backoff is drawn from its range, the slot timer is 0, the view is BUSY and the item takes one deferral (R28, R135). -/
def Obligations.RefusedHandOverDrawsAgain : Prop :=
  ∀ (s : State) (g : Granted) (h : List Byte) (b : BodyCheck) (since : Millis), s.station.held = false →
    s.transmit.controller = .sending g h b .pending → s.line.medium = .busy →
    ∃ (draw : Nat) (s1 t : State),
      draw < (if grantedUrgent s g then 4 else 8)
      ∧ s1 = { s with
          drawCount := s.drawCount + 1
          relays := s1.relays
          outbox := s1.outbox
          transmit := ⟨.backoff g draw 0, .busy⟩ }
      ∧ (∀ i r, g = .relay i → relayAt s i = some r → r.state = .sending since →
        s1.outbox = s.outbox ∧ s1.relays = s.relays.set i (some { r with state := .contending since }))
      ∧ (∀ i o, g = .origin i → s.outbox[i]? = some o → o.state = .sending since →
        s1.relays = s.relays ∧ s1.outbox = s.outbox.set i { o with state := .contending since })
      ∧ exec .handOver s = .next (settleAttn t) ∧ Defers g s1 t

/-- TRANSMISSION_COMPLETE: time runs to the tick after the end marker, LED_OUT is dark, TXACT low, the blinding
deadline 32 ticks ahead, the controller IDLE; a relay item is removed and RELAYS_SENT counted, a repeat of an origin
item ends as sent (R29, R120, R140, R150). Letting time run to the event's moment is the model's choice (log 2). So
is the position as the element being sent (log 22). -/
def Obligations.TransmissionCompleteHandsBack : Prop :=
  ∀ (s : State) (g : Granted) (h : List Byte) (b : BodyCheck) (e : Element) (k : Nat), s.station.held = false →
    s.transmit.controller = .sending g h b (.accepted e k) →
    let c := txCopy s g h b
    let s1 := runToTick (s.line.tick + c.remaining c.elementBound e k) s
    let s2 : State := { s1 with
      line := { s1.line with ledOut := false, txact := false, blindingDeadline := some (s1.line.tick + 32) }
      transmit := ⟨.idle, s.transmit.view⟩ }
    (∀ i r, g = .relay i → relayAt s i = some r →
      exec .transmissionComplete s = .next (settleAttn (relayGone i r
        { s2 with counters := s.counters.bump .relaysSent })))
    ∧ (∀ i o, g = .origin i → s.outbox[i]? = some o →
      ∃ t, exec .transmissionComplete s = .next (settleAttn t) ∧ RepeatEnds true i o s2 t)

/-- The airtime of a copy of L payload bytes, in ticks of 1/16 U, is 472 + 32L + n1 U, n1 the number of its header
and body symbols that carry a 1 (R15, R16, R28). -/
def Obligations.AirtimeOfACopy : Prop :=
  ∀ c : TxCopy,
    let ones := ((List.range 192).countP fun h => c.headerValue h)
      + (List.range (16 * c.payload.length + 40)).countP fun j => c.bodyValue j
    c.airtime = 16 * (472 + 32 * c.payload.length + ones)

/-- Each body symbol carries the coded symbol that the encoder of R11, started from state 0, gives at its interleaved
position, and the interleaving takes each coded position once (R11, R12, R138). -/
def Obligations.StreamCarriesTheEncodedBody : Prop :=
  ∀ (c : TxCopy) (j : Nat), j < 16 * c.payload.length + 40 →
    let m := 2 * c.payload.length + 5
    let k := 8 * (j % m) + j / m
    k < 16 * c.payload.length + 40 ∧ k % 8 * m + k / 8 = j
      ∧ (encodeBits (informationBits c.payload c.check))[k]? = some (c.bodyValue j)

/-! ## The Decoder and Delivery -/

/-- DECODER_TAKE: the IDLE Decoder takes the head of the Decode Queue, the entry is DECODING, its accumulators are
the snapshot, the lowest free Body Store slot is reserved, and the completion lies 16(8L + 20) REFCLK periods ahead
(R63, R78, R79, R80, R97). -/
def Obligations.DecoderTakesTheHead : Prop :=
  ∀ (s : State) (i k : Nat) (rest : List Nat) (e : Entry) (sl : Slot), s.station.held = false → s.decoder = none →
    s.decodeQueue = i :: rest → entryAt s i = some e →
    s.slots[k]? = some sl → sl.isFree = true → (∀ j x, j < k → s.slots[j]? = some x → x.isFree = false) →
    exec .decoderTake s = .next (settleAttn
      { s with
        table := s.table.set i (some { e with state := .decoding })
        decodeQueue := rest
        decoder := some
          { entry := i
            snapshot := e.accumulators
            length := e.identity.length
            identityBlock := identityBlock e.key e.identity
            unresolved := e.accumulators.count 0
            slot := k
            completion := s.refclk + 16 * (8 * e.identity.length + 20) }
        slots := s.slots.set k { sl with byDecoder := true } })

/-- DECODE_COMPLETION that fails: the reservation is released, DECODES_FAILED counted, and the entry freed and
counted expired under FINAL, queued again at the tail under RECHECK if the gate passes, else WAITING (R69, R84).
Letting time run to the event's moment is the model's choice (log 2). -/
def Obligations.FailedDecodeSettlesTheEntry : Prop :=
  ∀ (s : State) (d : Decode) (e : Entry), s.station.held = false → s.decoder = some d → entryAt s d.entry = some e →
    decodeOutcome d.length d.identityBlock d.snapshot = none →
    let s1 := runToPeriod d.completion s
    let s2 : State := { s1 with
      decoder := none
      slots := s.slots.modify d.slot (slotWithout .decoder)
      counters := s.counters.bump .decodesFailed }
    let passes := e.accumulators.count 0 ≤ (16 * e.identity.length + 40) / 4
    (e.final = true →
      exec .decodeCompletion s = .next (settleAttn
        { s2 with counters := s2.counters.bump .entriesExpired, table := s.table.set d.entry none }))
    ∧ (e.final = false → e.recheck = true → passes →
      exec .decodeCompletion s = .next (settleAttn
        { s2 with
          table := s.table.set d.entry (some { e with state := .queued, recheck := false })
          decodeQueue := s.decodeQueue ++ [d.entry] }))
    ∧ (e.final = false → ¬ (e.recheck = true ∧ passes) →
      exec .decodeCompletion s = .next (settleAttn
        { s2 with table := s.table.set d.entry (some { e with state := .waiting, recheck := false }) }))

/-- DECODE_COMPLETION that succeeds: the payload is written, the entry freed, its key made the newest of at most 32,
the message appended to an Inbox with room or dropped and flagged, a relay item made with a drawn hold-off or refused
for want of room, and the reservation ended (R67, R68, R83, R92, R94, R103, R110 to R113). Letting time run to the
event's moment is the model's choice (log 2). -/
def Obligations.SuccessfulDecodeDelivers : Prop :=
  ∀ (s : State) (d : Decode) (e : Entry) (payload : List Byte), s.station.held = false → s.decoder = some d →
    entryAt s d.entry = some e → decodeOutcome d.length d.identityBlock d.snapshot = some payload →
    let s1 := runToPeriod d.completion s
    let mine : Bool := forThisStation s.cfg e.identity
    let kept : Bool := mine && decide (s.inbox.length < 12)
    let dropped : Bool := mine && decide (12 ≤ s.inbox.length)
    let asked : Bool := decide (RelayAsked s e)
    let room : Bool := decide (none ∈ s.relays)
    ∃ t, exec .decodeCompletion s = .next (settleAttn t)
      ∧ t.table = s.table.set d.entry none ∧ t.decoder = none
      ∧ (s.history.length < 32 → t.history = s.history ++ [e.key])
      ∧ (s.history.length = 32 → t.history = s.history.tail ++ [e.key])
      ∧ t.inbox = (if kept then s.inbox ++ [madeMessage e d] else s.inbox)
      ∧ t.flags =
        { s.flags with
          inboxOverflow := s.flags.inboxOverflow || dropped
          scheduleFull := s.flags.scheduleFull || (asked && !room) }
      ∧ (∀ c, t.counters.get c =
        if (c = .messagesDelivered ∧ kept = true) ∨ (c = .inboxOverflows ∧ dropped = true)
            ∨ (c = .relaysRefused ∧ asked = true ∧ room = false)
        then saturate (s.counters.get c) else s.counters.get c)
      ∧ (asked = false ∨ room = false → t.relays = s.relays ∧ t.drawCount = s.drawCount)
      ∧ (asked = true → ∀ i, s.relays[i]? = some none → (∀ j, j < i → s.relays[j]? ≠ some none) →
        t.drawCount = s.drawCount + 1
        ∧ ∃ draw,
          (1 ≤ s.cfg.holdOffWindow →
            draw < if e.identity.urgent then max 1 (s.cfg.holdOffWindow / 4) else s.cfg.holdOffWindow)
          ∧ t.relays = s.relays.set i
            (some (madeRelay e d.slot (s1.station.milliTimer + BitVec.ofNat 32 draw))))
      ∧ t.slots = s.slots.modify d.slot (fun sl =>
        slotWithout .decoder
          { sl with
            payload := payload
            byInbox := sl.byInbox || kept
            byRelay := sl.byRelay || (asked && room) })
      ∧ t = { s1 with
          table := t.table, decoder := t.decoder, history := t.history, inbox := t.inbox, flags := t.flags
          relays := t.relays, drawCount := t.drawCount, counters := t.counters, slots := t.slots }

/-- A decoded message is for this station exactly when its kind is ALL, or GROUP with a destination in the group
list, or STATION with the station id as destination. -/
def Obligations.DestinationMatch : Prop :=
  ∀ (c : ConfigRecord) (i : Identity),
    forThisStation c i = true ↔
      (i.kind = .all ∨ (i.kind = .group ∧ i.destination ∈ c.groups)
        ∨ (i.kind = .station ∧ i.destination = c.stationId))

/-- A snapshot in which every accumulator has the sign of the symbol that was sent decodes to the payload that was
sent, whatever the sizes of the accumulators (R10, R11, R13, R14). -/
def Obligations.CleanSnapshotDecodes : Prop :=
  ∀ (payload block : List Byte) (snapshot : List Int), snapshot.length = 16 * payload.length + 40 →
    (∀ (k : Nat) (v : Int) (b : Bool), snapshot[k]? = some v →
      (encodeBits (informationBits payload (bodyCheck block payload)))[k]? = some b →
      (b = true → 0 < v) ∧ (b = false → v < 0)) →
    decodeOutcome payload.length block snapshot = some payload

/-! ## Deadlines -/

/-- ENTRY_DEADLINE of an entry not yet FINAL: a WAITING entry is freed and counted; a QUEUED or DECODING entry takes
FINAL and keeps everything else (R64, R65, R66). Letting time run to the event's moment is the model's choice (log
2). -/
def Obligations.EntryDeadlineFreesOrMarks : Prop :=
  ∀ (s : State) (i : Nat) (e : Entry), s.station.held = false → entryAt s i = some e → e.final = false →
    let s1 := runToMilli e.deadline s
    (e.state = .waiting →
      exec (.entryDeadline i) s = .next (settleAttn
        { s1 with table := s.table.set i none, counters := s.counters.bump .entriesExpired }))
    ∧ (e.state ≠ .waiting →
      exec (.entryDeadline i) s = .next (settleAttn
        { s1 with table := s.table.set i (some { e with final := true }) }))

/-- RELAY_HOLD_OFF_EXPIRY of an item in HOLDING: heard C times or more, it is removed, its hold on the body slot
released and RELAYS_SUPPRESSED counted; else it is READY with the time of the expiry as ready time. Letting time run
to the event's moment is the model's choice (log 2). -/
def Obligations.RelayHoldOffExpiryChecks : Prop :=
  ∀ (s : State) (i : Nat) (r : RelayItem), s.station.held = false → relayAt s i = some r → r.state = .holding →
    let s1 := runToMilli r.holdOffDeadline s
    (s.cfg.threshold ≤ r.heard →
      exec (.relayHoldOffExpiry i) s = .next (settleAttn (relayGone i r
        { s1 with counters := s.counters.bump .relaysSuppressed })))
    ∧ (r.heard < s.cfg.threshold →
      exec (.relayHoldOffExpiry i) s = .next (settleAttn
        { s1 with relays := s.relays.set i (some { r with state := .ready s1.station.milliTimer }) }))

/-- ORIGIN_HOLD_OFF_EXPIRY of an item in HOLDING: it becomes READY with the time of the expiry as ready time,
whatever its echoes (R151). Letting time run to the event's moment is the model's choice (log 2). -/
def Obligations.OriginHoldOffExpiryReadies : Prop :=
  ∀ (s : State) (i : Nat) (o : OriginItem) (d : Millis), s.station.held = false → s.outbox[i]? = some o →
    o.state = .holding d →
    let s1 := runToMilli d s
    exec (.originHoldOffExpiry i) s = .next (settleAttn
      { s1 with outbox := s.outbox.set i { o with state := .ready s1.station.milliTimer } })

/-- ECHO_DEADLINE of an item in ECHO_WAIT: its report is filed below 8 reports, with the item gone from the Outbox,
its hold released and a grant following its item to its new index; at 8 the item is REPORT_PENDING (R144, R153, R154,
R155). Letting time run to the event's moment is the model's choice (log 2). -/
def Obligations.EchoDeadlineReports : Prop :=
  ∀ (s : State) (i : Nat) (o : OriginItem) (d : Millis), s.station.held = false → s.outbox[i]? = some o →
    o.state = .echoWait d →
    exec (.echoDeadline i) s = .next (settleAttn (reported i o (runToMilli d s)))

/-- LISTEN_EXPIRY: the station is RUNNING, its listen deadline gone, and every HELD origin item READY with the time
of the expiry; no other block changes (R148, R162). Letting time run to the event's moment is the model's choice (log
2). -/
def Obligations.ListenExpiryStartsRunning : Prop :=
  ∀ (s : State) (d : Millis), s.station.held = false → s.station.state = .listening →
    s.station.listenDeadline = some d →
    let s1 := runToMilli d s
    exec .listenExpiry s = .next (settleAttn
      { s1 with
        station := { s1.station with state := .running, listenDeadline := none }
        outbox := s.outbox.map fun o =>
          if o.state = .held then { o with state := .ready s1.station.milliTimer } else o })

/-! ## The host port -/

/-- CSN_FALL opens a transaction in phase REQUEST with an empty request and bit count 0; CSN_RISE closes it in any
phase, discarding what is incomplete, and commits nothing (R171, R172, R173, R176). -/
def Obligations.TransactionsOpenAndClose : Prop :=
  ∀ s : State, s.station.held = false →
    (s.port.csnSeen = true →
      exec .csnFall s = .next (settleAttn
        { s with
          pins := { s.pins with csn := false }
          port :=
            { s.port with
              phase := .request, bitCount := 0, request := [], response := none, position := 0, byteDone := none
              csnSeen := false, miso := some false } }))
    ∧ exec .csnRise s = .next (settleAttn
        { s with
          pins := { s.pins with csn := true }
          port :=
            { s.port with
              phase := .idle, bitCount := 0, request := [], response := none, position := 0, byteDone := none
              csnSeen := true, miso := none } })

/-- Bits on the SPI pins: in an open transaction a rising edge of SCK shifts one bit of MOSI in, the eighth completes
a byte, most significant bit first, and a falling edge brings out the next bit of the byte being sent (R172; sampled
once a REFCLK period: log 8). With CSn high, and in phase IDLE, SCK and MOSI are ignored (R172); that they are
ignored too in the period of an edge of CSn, in which the CSn now and the CSn last seen differ, is the model's choice
(log 8). -/
def Obligations.SpiShiftsBits : Prop :=
  ∀ (p : Port) (pins : Pins),
    (pins.csn = false → p.csnSeen = false → p.phase ≠ .idle →
      (p.sckSeen = false → pins.sck = true →
        p.sample pins =
          { p with
            sckSeen := true
            shift := (p.shift.extractLsb' 0 7) ++ (BitVec.ofBool pins.mosi)
            bitCount := p.bitCount + 1
            byteDone :=
              if p.bitCount = 7 then some ((p.shift.extractLsb' 0 7) ++ (BitVec.ofBool pins.mosi)) else p.byteDone })
      ∧ (p.sckSeen = true → pins.sck = false →
        p.sample pins =
          { p with
            sckSeen := false
            miso := some (match p.phase, p.response with
              | .response, some r => (r.bytes.getD p.position 0).getLsbD (7 - p.bitCount.toNat)
              | _, _ => false) })
      ∧ (p.sckSeen = pins.sck → p.sample pins = p))
    ∧ (pins.csn = true ∨ p.csnSeen = true ∨ p.phase = .idle → p.sample pins = { p with sckSeen := pins.sck })

/-- BYTE_COMPLETE by the port's phase: in REQUEST a byte is added and the request taken if that completes it; in
RESPONSE the position moves on, and at the final byte the phase is TRAILING and the response's effect taken; in
TRAILING and IDLE nothing but the byte boundary (R172, R173, R176). That MISO then shows the byte's last bit is the
model's inference (log 19). -/
def Obligations.ByteCompleteByPhase : Prop :=
  ∀ (b : Byte) (s : State), s.station.held = false →
    (s.port.phase = .request →
      let s1 := received (s.port.request ++ [b]) s
      (requestComplete (s.port.request ++ [b]) = false →
        exec (.byteComplete b) s = .next (settleAttn s1))
      ∧ (requestComplete (s.port.request ++ [b]) = true →
        exec (.byteComplete b) s = .next (settleAttn (takeRequest (parseRequest (s.port.request ++ [b])) s1))))
    ∧ (∀ r, s.port.phase = .response → s.port.response = some r →
      (s.port.position + 1 < r.bytes.length →
        exec (.byteComplete b) s = .next (settleAttn
          { s with
            port :=
              { s.port with
                position := s.port.position + 1, bitCount := 0, byteDone := none
                miso := some ((r.bytes.getD s.port.position 0).getLsbD 0) } }))
      ∧ (s.port.position + 1 = r.bytes.length →
        exec (.byteComplete b) s = .next (settleAttn (commitResponse r (clockedOut r s)))))
    ∧ (s.port.phase = .trailing →
      exec (.byteComplete b) s = .next (settleAttn
        { s with port := { s.port with bitCount := 0, byteDone := none, miso := some false } }))
    ∧ (s.port.phase = .idle →
      exec (.byteComplete b) s = .next (settleAttn { s with port := { s.port with byteDone := none } }))

/-- CONFIGURE: LOCKED once configured; BAD_PARAMETER with nothing applied where a field is out of range; else the
record is written, the station LISTENING for twice the collection window, and reception begins at the first tick of
the new tick base (R33, R161, R162). That the command stands for the arrival of the request's remaining bytes is the
model's choice (log 7). That the present tick counts as the first, numbered 0, is its inference (log 16). -/
def Obligations.ConfigureTaken : Prop :=
  ∀ (s : State) (p : ConfigureParams), s.station.held = false → Completes (.configure p) s →
    let s1 := received (Request.configure p).bytes s
    (s.station.state ≠ .unconfigured →
      exec (.configure p) s = .next (settleAttn (answered .locked [] .nothing s1)))
    ∧ (s.station.state = .unconfigured → ¬ ConfigInRange p →
      exec (.configure p) s = .next (settleAttn (answered .badParameter [] .nothing s1)))
    ∧ (s.station.state = .unconfigured → ConfigInRange p →
      exec (.configure p) s = .next (settleAttn (answered .ok [] .nothing
        { s1 with
          station :=
            { s.station with
              state := .listening
              config := some
                { stationId := p.stationId
                  groups := [p.group1, p.group2, p.group3, p.group4].take p.groupCount.toNat
                  unitCode := p.unitCode.toNat
                  relayEnable := p.relayEnable == 1
                  threshold := p.threshold.toNat
                  holdOffWindow := p.holdOffWindow.toNat
                  defaultHops := p.defaultHops.toNat
                  windowCode := p.windowCode.toNat
                  deferralLimit := p.deferralLimit.toNat }
              listenDeadline := some
                (s.station.milliTimer + BitVec.ofNat 32 (2 * (10 * p.windowCode.toNat))) }
          line :=
            { s.line with
              phase := .dark
              runCount := if s.pins.demodIn then 1 else 0
              runFirst := 0
              markTimer := 0
              spaceTimer := 1
              silenceRaised := false
              blindingDeadline := none
              tick := 0
              tickPhase := 0 } })))

/-- SUBMIT: NOT_CONFIGURED, BAD_PARAMETER or FULL with nothing changed; else the payload goes to the lowest free
slot, the item joins the Outbox under the next key, READY in RUNNING and HELD in LISTENING, the next sequence
advances, and the response carries the sequence (R146, R147, R164, R175). That the command stands for the arrival of
the request's remaining bytes is the model's choice (log 7). -/
def Obligations.SubmitTaken : Prop :=
  ∀ (s : State) (p : SubmitParams), s.station.held = false → Completes (.submit p) s →
    let s1 := received (Request.submit p).bytes s
    let own := s.cfg.stationId
    let configured := s.station.state ≠ .unconfigured
    (s.station.state = .unconfigured →
      exec (.submit p) s = .next (settleAttn (answered .notConfigured [] .nothing s1)))
    ∧ (configured → ¬ SubmitInRange p own →
      exec (.submit p) s = .next (settleAttn (answered .badParameter [] .nothing s1)))
    ∧ (configured → SubmitInRange p own → 4 ≤ s.outbox.length →
      exec (.submit p) s = .next (settleAttn (answered .full [] .nothing s1)))
    ∧ (configured → SubmitInRange p own → s.outbox.length < 4 →
      ∀ k sl, s.slots[k]? = some sl → sl.isFree = true →
      (∀ j x, j < k → s.slots[j]? = some x → x.isFree = false) →
      exec (.submit p) s = .next (settleAttn
        (answered .ok
          [s.station.nextSequence.extractLsb' 0 8, (s.station.nextSequence.extractLsb' 8 4).setWidth 8] .nothing
          { s1 with
            slots := s.slots.set k { sl with payload := p.payload, byOrigin := true }
            station := { s.station with nextSequence := s.station.nextSequence + 1 }
            outbox := s.outbox ++
              [{ handle := p.handle
                 key := ⟨own, s.station.session, s.station.nextSequence⟩
                 identity :=
                   ⟨p.destination, if p.kind = 0 then .station else if p.kind = 1 then .group else .all,
                     p.urgent != 0, p.payload.length⟩
                 hops := if p.hops = 0 then s.cfg.defaultHops else p.hops.toNat
                 slot := k
                 repeatsRequested := p.repeats.toNat
                 repeatsSent := 0
                 repeatsEnded := 0
                 echoes := 0
                 state := if s.station.state = .running then .ready s.station.milliTimer else .held
                 deferrals := 0 }] })))

/-- COLLECT_MESSAGE and COLLECT_REPORT at their take: NOT_CONFIGURED, EMPTY, or OK with the head's fields; the head
stays where it is (R104, R156, R175, R182). That the command stands for the arrival of the request's remaining bytes
is the model's choice (log 7). -/
def Obligations.CollectsCopyTheHead : Prop :=
  ∀ s : State, s.station.held = false →
    (Completes .collectMessage s →
      let s1 := received (Request.collectMessage).bytes s
      (s.station.state = .unconfigured →
        exec .collectMessage s = .next (settleAttn (answered .notConfigured [] .nothing s1)))
      ∧ (s.station.state ≠ .unconfigured → s.inbox = [] →
        exec .collectMessage s = .next (settleAttn (answered .empty [] .nothing s1)))
      ∧ (s.station.state ≠ .unconfigured → ∀ m rest, s.inbox = m :: rest →
        exec .collectMessage s = .next (settleAttn
          (answered .ok (messageRecord m (payloadAt s m.slot)) .inboxHead s1))))
    ∧ (Completes .collectReport s →
      let s1 := received (Request.collectReport).bytes s
      (s.station.state = .unconfigured →
        exec .collectReport s = .next (settleAttn (answered .notConfigured [] .nothing s1)))
      ∧ (s.station.state ≠ .unconfigured → s.reports = [] →
        exec .collectReport s = .next (settleAttn (answered .empty [] .nothing s1)))
      ∧ (s.station.state ≠ .unconfigured → ∀ r rest, s.reports = r :: rest →
        exec .collectReport s = .next (settleAttn
          (answered .ok
            [r.handle, r.sequence.extractLsb' 0 8, (r.sequence.extractLsb' 8 4).setWidth 8,
              BitVec.ofNat 8 r.repeatsRequested, BitVec.ofNat 8 r.repeatsSent, BitVec.ofNat 8 r.echoes,
              match r.outcome with
              | .echoed => 0
              | .silent => 1
              | .unsent => 2]
            .reportHead s1))))

/-- READ_STATUS, READ_COUNTERS and CLEAR_EVENTS at their take: the status record and the 17 counters as they stand,
in the response alone; the named flags cleared and no other; a clear option above 1 or a mask beyond the four flags
is BAD_PARAMETER (R167, R168, R175, R177, R181, R182). That the command stands for the arrival of the request's
remaining bytes is the model's choice (log 7). -/
def Obligations.ReadsAndClears : Prop :=
  ∀ s : State, s.station.held = false →
    (Completes .readStatus s →
      let s1 := received (Request.readStatus).bytes s
      exec .readStatus s = .next (settleAttn (answered .ok (statusRecord s) .nothing s1)))
    ∧ (∀ b, Completes (.readCounters b) s →
      let s1 := received (Request.readCounters b).bytes s
      (b = 0 → exec (.readCounters b) s = .next (settleAttn (answered .ok (countersRecord s.counters) .nothing s1)))
      ∧ (b = 1 →
        exec (.readCounters b) s = .next (settleAttn (answered .ok (countersRecord s.counters) .clearCounters s1)))
      ∧ (2 ≤ b.toNat → exec (.readCounters b) s = .next (settleAttn (answered .badParameter [] .nothing s1))))
    ∧ (∀ m, Completes (.clearEvents m) s →
      let s1 := received (Request.clearEvents m).bytes s
      (s.station.state = .unconfigured →
        exec (.clearEvents m) s = .next (settleAttn (answered .notConfigured [] .nothing s1)))
      ∧ (s.station.state ≠ .unconfigured → 16 ≤ m.toNat →
        exec (.clearEvents m) s = .next (settleAttn (answered .badParameter [] .nothing s1)))
      ∧ (s.station.state ≠ .unconfigured → m.toNat < 16 →
        exec (.clearEvents m) s = .next (settleAttn (answered .ok [] .nothing
          { s1 with
            flags :=
              ⟨s.flags.inboxOverflow && !m.getLsbD 0, s.flags.selfConflict && !m.getLsbD 1,
                s.flags.keyConflict && !m.getLsbD 2, s.flags.scheduleFull && !m.getLsbD 3⟩ }))))

/-- RESTART: NOT_CONFIGURED in UNCONFIGURED; else the station is LISTENING afresh under the next session tag, the
sequence 0, every store and engine emptied without a count, reception begun again, and the configuration, counters,
flags and timers kept (R34, R53, R74, R89, R93, R100, R106, R125, R141, R158, R169). That the command stands for the
arrival of the request's remaining bytes is the model's choice (log 7). That the present tick counts as the first is
its inference (log 16). -/
def Obligations.RestartClearsTraffic : Prop :=
  ∀ s : State, s.station.held = false → Completes .restart s →
    let s1 := received (Request.restart).bytes s
    (s.station.state = .unconfigured →
      exec .restart s = .next (settleAttn (answered .notConfigured [] .nothing s1)))
    ∧ (s.station.state ≠ .unconfigured →
      exec .restart s = .next (settleAttn (answered .ok [] .nothing
        { s1 with
          station :=
            { s.station with
              state := .listening
              session := s.station.session + 1
              nextSequence := 0
              listenDeadline := some (s.station.milliTimer + BitVec.ofNat 32 (2 * (10 * s.cfg.windowCode))) }
          line :=
            { s.line with
              phase := .dark
              runCount := if s.pins.demodIn then 1 else 0
              runFirst := s.line.tick
              markTimer := 0
              spaceTimer := 1
              silenceRaised := false
              medium := .busy
              blindingDeadline := none
              ledOut := false
              txact := false }
          assembler := { emptyCopy with phase := .hunt }
          table := List.replicate 8 none
          decodeQueue := []
          decoder := none
          history := []
          slots := List.replicate 32 ⟨[], false, false, false, false⟩
          inbox := []
          relays := List.replicate 15 none
          outbox := []
          reports := []
          transmit := ⟨.idle, .busy⟩ })))

/-- MALFORMED_REQUEST: in every station state the answer is BAD_REQUEST with an empty body, and no block is reached
(R174, R179). That the command stands for the arrival of the request's remaining bytes is the model's choice (log 7). -/
def Obligations.MalformedRequestAnswered : Prop :=
  ∀ (s : State) (bytes : List Byte), s.station.held = false → Completes (.malformed bytes) s →
    exec (.malformedRequest bytes) s = .next (settleAttn (answered .badRequest [] .nothing (received bytes s)))

/-- The final bytes of the three destructive reads: the Inbox head removed and its hold let go; the report head
removed and, where that leaves 7 reports, the first REPORT_PENDING item filed; all 17 counters 0. A head that a
RESTART has removed since the take is not removed again (R104, R155, R156, R167, R176). That the command stands for
clocking the response to its end is the model's choice (log 7), that MISO then shows the final byte's last bit and
that the head is known to be gone by a mark are its inferences (logs 19 and 15). -/
def Obligations.FinalBytesCommitReads : Prop :=
  ∀ (s : State) (r : Response), s.station.held = false → s.port.phase = .response → s.port.response = some r →
    let s1 := clockedOut r s
    (r.commit = .inboxHead →
      (r.present = true → ∀ m rest, s.inbox = m :: rest →
        exec .collectMessageFinalByte s = .next (settleAttn
          { s1 with inbox := rest, slots := s.slots.modify m.slot (slotWithout .inbox) }))
      ∧ (r.present = false ∨ s.inbox = [] → exec .collectMessageFinalByte s = .next (settleAttn s1)))
    ∧ (r.commit = .reportHead →
      (r.present = true → ∀ x rest, s.reports = x :: rest →
        (rest.length ≠ 7 ∨ (∀ o ∈ s.outbox, o.state ≠ .reportPending) →
          exec .collectReportFinalByte s = .next (settleAttn { s1 with reports := rest }))
        ∧ (∀ i o, rest.length = 7 → s.outbox[i]? = some o → o.state = .reportPending →
          (∀ j p, j < i → s.outbox[j]? = some p → p.state ≠ .reportPending) →
          exec .collectReportFinalByte s = .next (settleAttn (filed i o { s1 with reports := rest }))))
      ∧ (r.present = false ∨ s.reports = [] → exec .collectReportFinalByte s = .next (settleAttn s1)))
    ∧ (r.commit = .clearCounters →
      ∃ t, exec .readCountersFinalByte s = .next (settleAttn t) ∧ (∀ c, t.counters.get c = 0)
        ∧ t = { s1 with counters := t.counters })

/-! ## Encodings -/

/-- Headers as they are sent and headers as they are accepted agree: the eight bytes of a header in range are
accepted as that header, accepted bytes are those of the header they give and that header is in range, and the
identity block is built of the header's own bytes (R2, R4, R7, R8, R180). -/
def Obligations.HeaderCodesAgree : Prop :=
  (∀ h : Header, 1 ≤ h.key.origin.toNat → h.key.origin.toNat ≤ 254 → 1 ≤ h.relayer.toNat → h.relayer.toNat ≤ 254 →
    1 ≤ h.identity.length → h.identity.length ≤ 48 → h.hops ≤ 7 → acceptHeader (headerBytes h) = some h)
  ∧ (∀ (bytes : List Byte) (h : Header), acceptHeader bytes = some h →
    headerBytes h = bytes ∧ 1 ≤ h.key.origin.toNat ∧ h.key.origin.toNat ≤ 254 ∧ 1 ≤ h.relayer.toNat
      ∧ h.relayer.toNat ≤ 254 ∧ 1 ≤ h.identity.length ∧ h.identity.length ≤ 48 ∧ h.hops ≤ 7)
  ∧ (∀ h : Header, ∃ b0 b1 b2 b3 b4 b5 b6 b7,
    headerBytes h = [b0, b1, b2, b3, b4, b5, b6, b7]
      ∧ identityBlock h.key h.identity = [b0, b1, b3, b4, b5, b6 &&& 0xF8#8])

/-- Requests as the host sends them and requests as the port reads them agree: the bytes of each of the eight
requests are complete and read as that request, and complete bytes are malformed exactly when the code is unknown, P
is above 58 or P is no length the table allows for the code (R173, R174, R181). -/
def Obligations.RequestCodesAgree : Prop :=
  (∀ r : Request, (∀ bytes, r ≠ .malformed bytes) → (∀ p, r = .submit p → p.payload.length ≤ 52) →
    requestComplete r.bytes = true ∧ parseRequest r.bytes = r)
  ∧ (∀ (code p : Byte) (params : List Byte), requestComplete (code :: p :: params) = true →
    (parseRequest (code :: p :: params) = .malformed (code :: p :: params) ↔
      ¬ ((code = 0x11 ∧ p = 13) ∨ (code = 0x12 ∧ 6 ≤ p.toNat ∧ p.toNat ≤ 58) ∨ (code = 0x21 ∧ p = 0)
        ∨ (code = 0x22 ∧ p = 0) ∨ (code = 0x31 ∧ p = 0) ∨ (code = 0x32 ∧ p = 1) ∨ (code = 0x33 ∧ p = 1)
        ∨ (code = 0x3F ∧ p = 0))))
  ∧ (∀ (code p : Byte) (params : List Byte),
    requestComplete (code :: p :: params) = true ↔
      (p.toNat ≤ 58 ∧ params.length = p.toNat) ∨ (58 < p.toNat ∧ params = []))

/-! ## Invariants -/

/-- The state after power-on has every property that the steps keep. -/
def Obligations.ResetMeetsTheInvariants : Prop :=
  State.reset.ShapesHold ∧ State.reset.WithinCapacity ∧ State.reset.HoldersAgree ∧ State.reset.MediumAgrees
    ∧ State.reset.GrantAgrees ∧ State.reset.AttnFollows ∧ State.reset.KeysApart ∧ State.reset.EntriesBounded
    ∧ State.reset.QuietUnconfigured

/-- Every step keeps the sizes of the stores and the bounds of the queues (R54, R93, R96, R102, R109, R144, R155),
and with them the agreement of the Body Store's holders with the Inbox, the Relay Schedule, the Outbox and the
Decoder (R96 to R99). In such a state a slot is free whenever one is asked for: with the Decoder IDLE, and with fewer
than 4 items in the Outbox (R97). -/
def Obligations.StepKeepsTheBounds : Prop :=
  ∀ s t : State, s.ShapesHold → s.WithinCapacity →
    (step s = .next t → t.ShapesHold ∧ t.WithinCapacity ∧ (s.HoldersAgree → t.HoldersAgree))
    ∧ (s.HoldersAgree → s.decoder = none ∨ s.outbox.length < 4 → ∃ sl ∈ s.slots, sl.isFree = true)

/-- Every step keeps the agreement of the medium, the Transmit Controller's view, the receiver phase and the Copy
Assembler: an IDLE medium is dark, silent and finds the assembler in HUNT (R25, R26, R47, R136). Every step keeps the
agreement of the controller with its owners: the granted item is the one CONTENDING item in BACKOFF and the one
SENDING item in SENDING (R126; log 10 for a slot timer of 64). -/
def Obligations.StepKeepsTheMediumAgreement : Prop :=
  ∀ s t : State, step s = .next t → (s.MediumAgrees → t.MediumAgrees) ∧ (s.GrantAgrees → t.GrantAgrees)

/-- Every step keeps ATTN at the level of R178. -/
def Obligations.StepKeepsAttn : Prop :=
  ∀ s t : State, s.AttnFollows → step s = .next t → t.AttnFollows

/-- Every step keeps each key in one place, in the Combining Table, the Delivery History and the Relay Schedule, and
the Decode Queue in step with the entries' states (R55, R62, R77, R93, R94, R109). -/
def Obligations.StepKeepsKeysApart : Prop :=
  ∀ s t : State, s.KeysApart → step s = .next t → t.KeysApart

/-- Every step keeps every field of every entry, and every field of the copy being received, in its range (R7, R36,
R54, R55, R60; log 20 for what is left in the Copy Assembler after a copy). -/
def Obligations.StepKeepsEntriesInRange : Prop :=
  ∀ s t : State, s.EntriesBounded → step s = .next t → t.EntriesBounded

/-- Every step keeps an UNCONFIGURED station quiet: no configuration, the line off, every store empty, every counter
0 (R32, R36, R75, R77, R93, R96, R106, R109, R126, R144, R160, R166, R168). -/
def Obligations.StepKeepsUnconfiguredQuiet : Prop :=
  ∀ s t : State, s.QuietUnconfigured → step s = .next t → t.QuietUnconfigured
end

