-- ==== Sys2Proof/Laws/State.lean ====
section
/-! SUPPORT. What each update of the state leaves in each field: one lemma per field per update, true by rfl. -/

namespace Sys2Proof.Machine

variable (s : State)

@[simp] theorem count_pending (c : Counter) : (count c s).pending = s.pending := rfl
@[simp] theorem count_pins (c : Counter) : (count c s).pins = s.pins := rfl
@[simp] theorem count_inputs (c : Counter) : (count c s).inputs = s.inputs := rfl
@[simp] theorem count_refclk (c : Counter) : (count c s).refclk = s.refclk := rfl
@[simp] theorem count_drawCount (c : Counter) : (count c s).drawCount = s.drawCount := rfl
@[simp] theorem count_choiceCount (c : Counter) : (count c s).choiceCount = s.choiceCount := rfl
@[simp] theorem count_orderCount (c : Counter) : (count c s).orderCount = s.orderCount := rfl
@[simp] theorem count_station (c : Counter) : (count c s).station = s.station := rfl
@[simp] theorem count_counters (c : Counter) : (count c s).counters = s.counters.bump c := rfl
@[simp] theorem count_flags (c : Counter) : (count c s).flags = s.flags := rfl
@[simp] theorem count_line (c : Counter) : (count c s).line = s.line := rfl
@[simp] theorem count_assembler (c : Counter) : (count c s).assembler = s.assembler := rfl
@[simp] theorem count_table (c : Counter) : (count c s).table = s.table := rfl
@[simp] theorem count_decodeQueue (c : Counter) : (count c s).decodeQueue = s.decodeQueue := rfl
@[simp] theorem count_decoder (c : Counter) : (count c s).decoder = s.decoder := rfl
@[simp] theorem count_history (c : Counter) : (count c s).history = s.history := rfl
@[simp] theorem count_slots (c : Counter) : (count c s).slots = s.slots := rfl
@[simp] theorem count_inbox (c : Counter) : (count c s).inbox = s.inbox := rfl
@[simp] theorem count_relays (c : Counter) : (count c s).relays = s.relays := rfl
@[simp] theorem count_outbox (c : Counter) : (count c s).outbox = s.outbox := rfl
@[simp] theorem count_reports (c : Counter) : (count c s).reports = s.reports := rfl
@[simp] theorem count_transmit (c : Counter) : (count c s).transmit = s.transmit := rfl
@[simp] theorem count_port (c : Counter) : (count c s).port = s.port := rfl

@[simp] theorem flagInboxOverflow_pending : (flagInboxOverflow s).pending = s.pending := rfl
@[simp] theorem flagInboxOverflow_pins : (flagInboxOverflow s).pins = s.pins := rfl
@[simp] theorem flagInboxOverflow_inputs : (flagInboxOverflow s).inputs = s.inputs := rfl
@[simp] theorem flagInboxOverflow_refclk : (flagInboxOverflow s).refclk = s.refclk := rfl
@[simp] theorem flagInboxOverflow_drawCount : (flagInboxOverflow s).drawCount = s.drawCount := rfl
@[simp] theorem flagInboxOverflow_choiceCount : (flagInboxOverflow s).choiceCount = s.choiceCount := rfl
@[simp] theorem flagInboxOverflow_orderCount : (flagInboxOverflow s).orderCount = s.orderCount := rfl
@[simp] theorem flagInboxOverflow_station : (flagInboxOverflow s).station = s.station := rfl
@[simp] theorem flagInboxOverflow_counters : (flagInboxOverflow s).counters = s.counters := rfl
@[simp] theorem flagInboxOverflow_flags : (flagInboxOverflow s).flags = { s.flags with inboxOverflow := true } := rfl
@[simp] theorem flagInboxOverflow_line : (flagInboxOverflow s).line = s.line := rfl
@[simp] theorem flagInboxOverflow_assembler : (flagInboxOverflow s).assembler = s.assembler := rfl
@[simp] theorem flagInboxOverflow_table : (flagInboxOverflow s).table = s.table := rfl
@[simp] theorem flagInboxOverflow_decodeQueue : (flagInboxOverflow s).decodeQueue = s.decodeQueue := rfl
@[simp] theorem flagInboxOverflow_decoder : (flagInboxOverflow s).decoder = s.decoder := rfl
@[simp] theorem flagInboxOverflow_history : (flagInboxOverflow s).history = s.history := rfl
@[simp] theorem flagInboxOverflow_slots : (flagInboxOverflow s).slots = s.slots := rfl
@[simp] theorem flagInboxOverflow_inbox : (flagInboxOverflow s).inbox = s.inbox := rfl
@[simp] theorem flagInboxOverflow_relays : (flagInboxOverflow s).relays = s.relays := rfl
@[simp] theorem flagInboxOverflow_outbox : (flagInboxOverflow s).outbox = s.outbox := rfl
@[simp] theorem flagInboxOverflow_reports : (flagInboxOverflow s).reports = s.reports := rfl
@[simp] theorem flagInboxOverflow_transmit : (flagInboxOverflow s).transmit = s.transmit := rfl
@[simp] theorem flagInboxOverflow_port : (flagInboxOverflow s).port = s.port := rfl

@[simp] theorem flagSelfConflict_pending : (flagSelfConflict s).pending = s.pending := rfl
@[simp] theorem flagSelfConflict_pins : (flagSelfConflict s).pins = s.pins := rfl
@[simp] theorem flagSelfConflict_inputs : (flagSelfConflict s).inputs = s.inputs := rfl
@[simp] theorem flagSelfConflict_refclk : (flagSelfConflict s).refclk = s.refclk := rfl
@[simp] theorem flagSelfConflict_drawCount : (flagSelfConflict s).drawCount = s.drawCount := rfl
@[simp] theorem flagSelfConflict_choiceCount : (flagSelfConflict s).choiceCount = s.choiceCount := rfl
@[simp] theorem flagSelfConflict_orderCount : (flagSelfConflict s).orderCount = s.orderCount := rfl
@[simp] theorem flagSelfConflict_station : (flagSelfConflict s).station = s.station := rfl
@[simp] theorem flagSelfConflict_counters : (flagSelfConflict s).counters = s.counters := rfl
@[simp] theorem flagSelfConflict_flags : (flagSelfConflict s).flags = { s.flags with selfConflict := true } := rfl
@[simp] theorem flagSelfConflict_line : (flagSelfConflict s).line = s.line := rfl
@[simp] theorem flagSelfConflict_assembler : (flagSelfConflict s).assembler = s.assembler := rfl
@[simp] theorem flagSelfConflict_table : (flagSelfConflict s).table = s.table := rfl
@[simp] theorem flagSelfConflict_decodeQueue : (flagSelfConflict s).decodeQueue = s.decodeQueue := rfl
@[simp] theorem flagSelfConflict_decoder : (flagSelfConflict s).decoder = s.decoder := rfl
@[simp] theorem flagSelfConflict_history : (flagSelfConflict s).history = s.history := rfl
@[simp] theorem flagSelfConflict_slots : (flagSelfConflict s).slots = s.slots := rfl
@[simp] theorem flagSelfConflict_inbox : (flagSelfConflict s).inbox = s.inbox := rfl
@[simp] theorem flagSelfConflict_relays : (flagSelfConflict s).relays = s.relays := rfl
@[simp] theorem flagSelfConflict_outbox : (flagSelfConflict s).outbox = s.outbox := rfl
@[simp] theorem flagSelfConflict_reports : (flagSelfConflict s).reports = s.reports := rfl
@[simp] theorem flagSelfConflict_transmit : (flagSelfConflict s).transmit = s.transmit := rfl
@[simp] theorem flagSelfConflict_port : (flagSelfConflict s).port = s.port := rfl

@[simp] theorem flagKeyConflict_pending : (flagKeyConflict s).pending = s.pending := rfl
@[simp] theorem flagKeyConflict_pins : (flagKeyConflict s).pins = s.pins := rfl
@[simp] theorem flagKeyConflict_inputs : (flagKeyConflict s).inputs = s.inputs := rfl
@[simp] theorem flagKeyConflict_refclk : (flagKeyConflict s).refclk = s.refclk := rfl
@[simp] theorem flagKeyConflict_drawCount : (flagKeyConflict s).drawCount = s.drawCount := rfl
@[simp] theorem flagKeyConflict_choiceCount : (flagKeyConflict s).choiceCount = s.choiceCount := rfl
@[simp] theorem flagKeyConflict_orderCount : (flagKeyConflict s).orderCount = s.orderCount := rfl
@[simp] theorem flagKeyConflict_station : (flagKeyConflict s).station = s.station := rfl
@[simp] theorem flagKeyConflict_counters : (flagKeyConflict s).counters = s.counters := rfl
@[simp] theorem flagKeyConflict_flags : (flagKeyConflict s).flags = { s.flags with keyConflict := true } := rfl
@[simp] theorem flagKeyConflict_line : (flagKeyConflict s).line = s.line := rfl
@[simp] theorem flagKeyConflict_assembler : (flagKeyConflict s).assembler = s.assembler := rfl
@[simp] theorem flagKeyConflict_table : (flagKeyConflict s).table = s.table := rfl
@[simp] theorem flagKeyConflict_decodeQueue : (flagKeyConflict s).decodeQueue = s.decodeQueue := rfl
@[simp] theorem flagKeyConflict_decoder : (flagKeyConflict s).decoder = s.decoder := rfl
@[simp] theorem flagKeyConflict_history : (flagKeyConflict s).history = s.history := rfl
@[simp] theorem flagKeyConflict_slots : (flagKeyConflict s).slots = s.slots := rfl
@[simp] theorem flagKeyConflict_inbox : (flagKeyConflict s).inbox = s.inbox := rfl
@[simp] theorem flagKeyConflict_relays : (flagKeyConflict s).relays = s.relays := rfl
@[simp] theorem flagKeyConflict_outbox : (flagKeyConflict s).outbox = s.outbox := rfl
@[simp] theorem flagKeyConflict_reports : (flagKeyConflict s).reports = s.reports := rfl
@[simp] theorem flagKeyConflict_transmit : (flagKeyConflict s).transmit = s.transmit := rfl
@[simp] theorem flagKeyConflict_port : (flagKeyConflict s).port = s.port := rfl

@[simp] theorem flagScheduleFull_pending : (flagScheduleFull s).pending = s.pending := rfl
@[simp] theorem flagScheduleFull_pins : (flagScheduleFull s).pins = s.pins := rfl
@[simp] theorem flagScheduleFull_inputs : (flagScheduleFull s).inputs = s.inputs := rfl
@[simp] theorem flagScheduleFull_refclk : (flagScheduleFull s).refclk = s.refclk := rfl
@[simp] theorem flagScheduleFull_drawCount : (flagScheduleFull s).drawCount = s.drawCount := rfl
@[simp] theorem flagScheduleFull_choiceCount : (flagScheduleFull s).choiceCount = s.choiceCount := rfl
@[simp] theorem flagScheduleFull_orderCount : (flagScheduleFull s).orderCount = s.orderCount := rfl
@[simp] theorem flagScheduleFull_station : (flagScheduleFull s).station = s.station := rfl
@[simp] theorem flagScheduleFull_counters : (flagScheduleFull s).counters = s.counters := rfl
@[simp] theorem flagScheduleFull_flags : (flagScheduleFull s).flags = { s.flags with scheduleFull := true } := rfl
@[simp] theorem flagScheduleFull_line : (flagScheduleFull s).line = s.line := rfl
@[simp] theorem flagScheduleFull_assembler : (flagScheduleFull s).assembler = s.assembler := rfl
@[simp] theorem flagScheduleFull_table : (flagScheduleFull s).table = s.table := rfl
@[simp] theorem flagScheduleFull_decodeQueue : (flagScheduleFull s).decodeQueue = s.decodeQueue := rfl
@[simp] theorem flagScheduleFull_decoder : (flagScheduleFull s).decoder = s.decoder := rfl
@[simp] theorem flagScheduleFull_history : (flagScheduleFull s).history = s.history := rfl
@[simp] theorem flagScheduleFull_slots : (flagScheduleFull s).slots = s.slots := rfl
@[simp] theorem flagScheduleFull_inbox : (flagScheduleFull s).inbox = s.inbox := rfl
@[simp] theorem flagScheduleFull_relays : (flagScheduleFull s).relays = s.relays := rfl
@[simp] theorem flagScheduleFull_outbox : (flagScheduleFull s).outbox = s.outbox := rfl
@[simp] theorem flagScheduleFull_reports : (flagScheduleFull s).reports = s.reports := rfl
@[simp] theorem flagScheduleFull_transmit : (flagScheduleFull s).transmit = s.transmit := rfl
@[simp] theorem flagScheduleFull_port : (flagScheduleFull s).port = s.port := rfl

@[simp] theorem settleAttn_pending : (settleAttn s).pending = s.pending := rfl
@[simp] theorem settleAttn_pins : (settleAttn s).pins = s.pins := rfl
@[simp] theorem settleAttn_inputs : (settleAttn s).inputs = s.inputs := rfl
@[simp] theorem settleAttn_refclk : (settleAttn s).refclk = s.refclk := rfl
@[simp] theorem settleAttn_drawCount : (settleAttn s).drawCount = s.drawCount := rfl
@[simp] theorem settleAttn_choiceCount : (settleAttn s).choiceCount = s.choiceCount := rfl
@[simp] theorem settleAttn_orderCount : (settleAttn s).orderCount = s.orderCount := rfl
@[simp] theorem settleAttn_station : (settleAttn s).station = s.station := rfl
@[simp] theorem settleAttn_counters : (settleAttn s).counters = s.counters := rfl
@[simp] theorem settleAttn_flags : (settleAttn s).flags = s.flags := rfl
@[simp] theorem settleAttn_line : (settleAttn s).line = s.line := rfl
@[simp] theorem settleAttn_assembler : (settleAttn s).assembler = s.assembler := rfl
@[simp] theorem settleAttn_table : (settleAttn s).table = s.table := rfl
@[simp] theorem settleAttn_decodeQueue : (settleAttn s).decodeQueue = s.decodeQueue := rfl
@[simp] theorem settleAttn_decoder : (settleAttn s).decoder = s.decoder := rfl
@[simp] theorem settleAttn_history : (settleAttn s).history = s.history := rfl
@[simp] theorem settleAttn_slots : (settleAttn s).slots = s.slots := rfl
@[simp] theorem settleAttn_inbox : (settleAttn s).inbox = s.inbox := rfl
@[simp] theorem settleAttn_relays : (settleAttn s).relays = s.relays := rfl
@[simp] theorem settleAttn_outbox : (settleAttn s).outbox = s.outbox := rfl
@[simp] theorem settleAttn_reports : (settleAttn s).reports = s.reports := rfl
@[simp] theorem settleAttn_transmit : (settleAttn s).transmit = s.transmit := rfl
@[simp] theorem settleAttn_port : (settleAttn s).port = { s.port with attn := attnLevel s } := rfl

@[simp] theorem drawn_pending : (s.drawn).pending = s.pending := rfl
@[simp] theorem drawn_pins : (s.drawn).pins = s.pins := rfl
@[simp] theorem drawn_inputs : (s.drawn).inputs = s.inputs := rfl
@[simp] theorem drawn_refclk : (s.drawn).refclk = s.refclk := rfl
@[simp] theorem drawn_drawCount : (s.drawn).drawCount = s.drawCount + 1 := rfl
@[simp] theorem drawn_choiceCount : (s.drawn).choiceCount = s.choiceCount := rfl
@[simp] theorem drawn_orderCount : (s.drawn).orderCount = s.orderCount := rfl
@[simp] theorem drawn_station : (s.drawn).station = s.station := rfl
@[simp] theorem drawn_counters : (s.drawn).counters = s.counters := rfl
@[simp] theorem drawn_flags : (s.drawn).flags = s.flags := rfl
@[simp] theorem drawn_line : (s.drawn).line = s.line := rfl
@[simp] theorem drawn_assembler : (s.drawn).assembler = s.assembler := rfl
@[simp] theorem drawn_table : (s.drawn).table = s.table := rfl
@[simp] theorem drawn_decodeQueue : (s.drawn).decodeQueue = s.decodeQueue := rfl
@[simp] theorem drawn_decoder : (s.drawn).decoder = s.decoder := rfl
@[simp] theorem drawn_history : (s.drawn).history = s.history := rfl
@[simp] theorem drawn_slots : (s.drawn).slots = s.slots := rfl
@[simp] theorem drawn_inbox : (s.drawn).inbox = s.inbox := rfl
@[simp] theorem drawn_relays : (s.drawn).relays = s.relays := rfl
@[simp] theorem drawn_outbox : (s.drawn).outbox = s.outbox := rfl
@[simp] theorem drawn_reports : (s.drawn).reports = s.reports := rfl
@[simp] theorem drawn_transmit : (s.drawn).transmit = s.transmit := rfl
@[simp] theorem drawn_port : (s.drawn).port = s.port := rfl

@[simp] theorem chosen_pending : (s.chosen).pending = s.pending := rfl
@[simp] theorem chosen_pins : (s.chosen).pins = s.pins := rfl
@[simp] theorem chosen_inputs : (s.chosen).inputs = s.inputs := rfl
@[simp] theorem chosen_refclk : (s.chosen).refclk = s.refclk := rfl
@[simp] theorem chosen_drawCount : (s.chosen).drawCount = s.drawCount := rfl
@[simp] theorem chosen_choiceCount : (s.chosen).choiceCount = s.choiceCount + 1 := rfl
@[simp] theorem chosen_orderCount : (s.chosen).orderCount = s.orderCount := rfl
@[simp] theorem chosen_station : (s.chosen).station = s.station := rfl
@[simp] theorem chosen_counters : (s.chosen).counters = s.counters := rfl
@[simp] theorem chosen_flags : (s.chosen).flags = s.flags := rfl
@[simp] theorem chosen_line : (s.chosen).line = s.line := rfl
@[simp] theorem chosen_assembler : (s.chosen).assembler = s.assembler := rfl
@[simp] theorem chosen_table : (s.chosen).table = s.table := rfl
@[simp] theorem chosen_decodeQueue : (s.chosen).decodeQueue = s.decodeQueue := rfl
@[simp] theorem chosen_decoder : (s.chosen).decoder = s.decoder := rfl
@[simp] theorem chosen_history : (s.chosen).history = s.history := rfl
@[simp] theorem chosen_slots : (s.chosen).slots = s.slots := rfl
@[simp] theorem chosen_inbox : (s.chosen).inbox = s.inbox := rfl
@[simp] theorem chosen_relays : (s.chosen).relays = s.relays := rfl
@[simp] theorem chosen_outbox : (s.chosen).outbox = s.outbox := rfl
@[simp] theorem chosen_reports : (s.chosen).reports = s.reports := rfl
@[simp] theorem chosen_transmit : (s.chosen).transmit = s.transmit := rfl
@[simp] theorem chosen_port : (s.chosen).port = s.port := rfl

@[simp] theorem ordered_pending : (s.ordered).pending = s.pending := rfl
@[simp] theorem ordered_pins : (s.ordered).pins = s.pins := rfl
@[simp] theorem ordered_inputs : (s.ordered).inputs = s.inputs := rfl
@[simp] theorem ordered_refclk : (s.ordered).refclk = s.refclk := rfl
@[simp] theorem ordered_drawCount : (s.ordered).drawCount = s.drawCount := rfl
@[simp] theorem ordered_choiceCount : (s.ordered).choiceCount = s.choiceCount := rfl
@[simp] theorem ordered_orderCount : (s.ordered).orderCount = s.orderCount + 1 := rfl
@[simp] theorem ordered_station : (s.ordered).station = s.station := rfl
@[simp] theorem ordered_counters : (s.ordered).counters = s.counters := rfl
@[simp] theorem ordered_flags : (s.ordered).flags = s.flags := rfl
@[simp] theorem ordered_line : (s.ordered).line = s.line := rfl
@[simp] theorem ordered_assembler : (s.ordered).assembler = s.assembler := rfl
@[simp] theorem ordered_table : (s.ordered).table = s.table := rfl
@[simp] theorem ordered_decodeQueue : (s.ordered).decodeQueue = s.decodeQueue := rfl
@[simp] theorem ordered_decoder : (s.ordered).decoder = s.decoder := rfl
@[simp] theorem ordered_history : (s.ordered).history = s.history := rfl
@[simp] theorem ordered_slots : (s.ordered).slots = s.slots := rfl
@[simp] theorem ordered_inbox : (s.ordered).inbox = s.inbox := rfl
@[simp] theorem ordered_relays : (s.ordered).relays = s.relays := rfl
@[simp] theorem ordered_outbox : (s.ordered).outbox = s.outbox := rfl
@[simp] theorem ordered_reports : (s.ordered).reports = s.reports := rfl
@[simp] theorem ordered_transmit : (s.ordered).transmit = s.transmit := rfl
@[simp] theorem ordered_port : (s.ordered).port = s.port := rfl

@[simp] theorem holdSlot_pending (i : Nat) (h : Holder) : (holdSlot i h s).pending = s.pending := rfl
@[simp] theorem holdSlot_pins (i : Nat) (h : Holder) : (holdSlot i h s).pins = s.pins := rfl
@[simp] theorem holdSlot_inputs (i : Nat) (h : Holder) : (holdSlot i h s).inputs = s.inputs := rfl
@[simp] theorem holdSlot_refclk (i : Nat) (h : Holder) : (holdSlot i h s).refclk = s.refclk := rfl
@[simp] theorem holdSlot_drawCount (i : Nat) (h : Holder) : (holdSlot i h s).drawCount = s.drawCount := rfl
@[simp] theorem holdSlot_choiceCount (i : Nat) (h : Holder) : (holdSlot i h s).choiceCount = s.choiceCount := rfl
@[simp] theorem holdSlot_orderCount (i : Nat) (h : Holder) : (holdSlot i h s).orderCount = s.orderCount := rfl
@[simp] theorem holdSlot_station (i : Nat) (h : Holder) : (holdSlot i h s).station = s.station := rfl
@[simp] theorem holdSlot_counters (i : Nat) (h : Holder) : (holdSlot i h s).counters = s.counters := rfl
@[simp] theorem holdSlot_flags (i : Nat) (h : Holder) : (holdSlot i h s).flags = s.flags := rfl
@[simp] theorem holdSlot_line (i : Nat) (h : Holder) : (holdSlot i h s).line = s.line := rfl
@[simp] theorem holdSlot_assembler (i : Nat) (h : Holder) : (holdSlot i h s).assembler = s.assembler := rfl
@[simp] theorem holdSlot_table (i : Nat) (h : Holder) : (holdSlot i h s).table = s.table := rfl
@[simp] theorem holdSlot_decodeQueue (i : Nat) (h : Holder) : (holdSlot i h s).decodeQueue = s.decodeQueue := rfl
@[simp] theorem holdSlot_decoder (i : Nat) (h : Holder) : (holdSlot i h s).decoder = s.decoder := rfl
@[simp] theorem holdSlot_history (i : Nat) (h : Holder) : (holdSlot i h s).history = s.history := rfl
@[simp] theorem holdSlot_slots (i : Nat) (h : Holder) : (holdSlot i h s).slots = s.slots.modify i (fun sl => sl.setHold h true) := rfl
@[simp] theorem holdSlot_inbox (i : Nat) (h : Holder) : (holdSlot i h s).inbox = s.inbox := rfl
@[simp] theorem holdSlot_relays (i : Nat) (h : Holder) : (holdSlot i h s).relays = s.relays := rfl
@[simp] theorem holdSlot_outbox (i : Nat) (h : Holder) : (holdSlot i h s).outbox = s.outbox := rfl
@[simp] theorem holdSlot_reports (i : Nat) (h : Holder) : (holdSlot i h s).reports = s.reports := rfl
@[simp] theorem holdSlot_transmit (i : Nat) (h : Holder) : (holdSlot i h s).transmit = s.transmit := rfl
@[simp] theorem holdSlot_port (i : Nat) (h : Holder) : (holdSlot i h s).port = s.port := rfl

@[simp] theorem releaseSlot_pending (i : Nat) (h : Holder) : (releaseSlot i h s).pending = s.pending := rfl
@[simp] theorem releaseSlot_pins (i : Nat) (h : Holder) : (releaseSlot i h s).pins = s.pins := rfl
@[simp] theorem releaseSlot_inputs (i : Nat) (h : Holder) : (releaseSlot i h s).inputs = s.inputs := rfl
@[simp] theorem releaseSlot_refclk (i : Nat) (h : Holder) : (releaseSlot i h s).refclk = s.refclk := rfl
@[simp] theorem releaseSlot_drawCount (i : Nat) (h : Holder) : (releaseSlot i h s).drawCount = s.drawCount := rfl
@[simp] theorem releaseSlot_choiceCount (i : Nat) (h : Holder) : (releaseSlot i h s).choiceCount = s.choiceCount := rfl
@[simp] theorem releaseSlot_orderCount (i : Nat) (h : Holder) : (releaseSlot i h s).orderCount = s.orderCount := rfl
@[simp] theorem releaseSlot_station (i : Nat) (h : Holder) : (releaseSlot i h s).station = s.station := rfl
@[simp] theorem releaseSlot_counters (i : Nat) (h : Holder) : (releaseSlot i h s).counters = s.counters := rfl
@[simp] theorem releaseSlot_flags (i : Nat) (h : Holder) : (releaseSlot i h s).flags = s.flags := rfl
@[simp] theorem releaseSlot_line (i : Nat) (h : Holder) : (releaseSlot i h s).line = s.line := rfl
@[simp] theorem releaseSlot_assembler (i : Nat) (h : Holder) : (releaseSlot i h s).assembler = s.assembler := rfl
@[simp] theorem releaseSlot_table (i : Nat) (h : Holder) : (releaseSlot i h s).table = s.table := rfl
@[simp] theorem releaseSlot_decodeQueue (i : Nat) (h : Holder) : (releaseSlot i h s).decodeQueue = s.decodeQueue := rfl
@[simp] theorem releaseSlot_decoder (i : Nat) (h : Holder) : (releaseSlot i h s).decoder = s.decoder := rfl
@[simp] theorem releaseSlot_history (i : Nat) (h : Holder) : (releaseSlot i h s).history = s.history := rfl
@[simp] theorem releaseSlot_slots (i : Nat) (h : Holder) : (releaseSlot i h s).slots = s.slots.modify i (fun sl => (sl.setHold h false).settle) := rfl
@[simp] theorem releaseSlot_inbox (i : Nat) (h : Holder) : (releaseSlot i h s).inbox = s.inbox := rfl
@[simp] theorem releaseSlot_relays (i : Nat) (h : Holder) : (releaseSlot i h s).relays = s.relays := rfl
@[simp] theorem releaseSlot_outbox (i : Nat) (h : Holder) : (releaseSlot i h s).outbox = s.outbox := rfl
@[simp] theorem releaseSlot_reports (i : Nat) (h : Holder) : (releaseSlot i h s).reports = s.reports := rfl
@[simp] theorem releaseSlot_transmit (i : Nat) (h : Holder) : (releaseSlot i h s).transmit = s.transmit := rfl
@[simp] theorem releaseSlot_port (i : Nat) (h : Holder) : (releaseSlot i h s).port = s.port := rfl

@[simp] theorem writeSlot_pending (i : Nat) (p : List Byte) : (writeSlot i p s).pending = s.pending := rfl
@[simp] theorem writeSlot_pins (i : Nat) (p : List Byte) : (writeSlot i p s).pins = s.pins := rfl
@[simp] theorem writeSlot_inputs (i : Nat) (p : List Byte) : (writeSlot i p s).inputs = s.inputs := rfl
@[simp] theorem writeSlot_refclk (i : Nat) (p : List Byte) : (writeSlot i p s).refclk = s.refclk := rfl
@[simp] theorem writeSlot_drawCount (i : Nat) (p : List Byte) : (writeSlot i p s).drawCount = s.drawCount := rfl
@[simp] theorem writeSlot_choiceCount (i : Nat) (p : List Byte) : (writeSlot i p s).choiceCount = s.choiceCount := rfl
@[simp] theorem writeSlot_orderCount (i : Nat) (p : List Byte) : (writeSlot i p s).orderCount = s.orderCount := rfl
@[simp] theorem writeSlot_station (i : Nat) (p : List Byte) : (writeSlot i p s).station = s.station := rfl
@[simp] theorem writeSlot_counters (i : Nat) (p : List Byte) : (writeSlot i p s).counters = s.counters := rfl
@[simp] theorem writeSlot_flags (i : Nat) (p : List Byte) : (writeSlot i p s).flags = s.flags := rfl
@[simp] theorem writeSlot_line (i : Nat) (p : List Byte) : (writeSlot i p s).line = s.line := rfl
@[simp] theorem writeSlot_assembler (i : Nat) (p : List Byte) : (writeSlot i p s).assembler = s.assembler := rfl
@[simp] theorem writeSlot_table (i : Nat) (p : List Byte) : (writeSlot i p s).table = s.table := rfl
@[simp] theorem writeSlot_decodeQueue (i : Nat) (p : List Byte) : (writeSlot i p s).decodeQueue = s.decodeQueue := rfl
@[simp] theorem writeSlot_decoder (i : Nat) (p : List Byte) : (writeSlot i p s).decoder = s.decoder := rfl
@[simp] theorem writeSlot_history (i : Nat) (p : List Byte) : (writeSlot i p s).history = s.history := rfl
@[simp] theorem writeSlot_slots (i : Nat) (p : List Byte) : (writeSlot i p s).slots = s.slots.modify i (fun sl => { sl with payload := p }) := rfl
@[simp] theorem writeSlot_inbox (i : Nat) (p : List Byte) : (writeSlot i p s).inbox = s.inbox := rfl
@[simp] theorem writeSlot_relays (i : Nat) (p : List Byte) : (writeSlot i p s).relays = s.relays := rfl
@[simp] theorem writeSlot_outbox (i : Nat) (p : List Byte) : (writeSlot i p s).outbox = s.outbox := rfl
@[simp] theorem writeSlot_reports (i : Nat) (p : List Byte) : (writeSlot i p s).reports = s.reports := rfl
@[simp] theorem writeSlot_transmit (i : Nat) (p : List Byte) : (writeSlot i p s).transmit = s.transmit := rfl
@[simp] theorem writeSlot_port (i : Nat) (p : List Byte) : (writeSlot i p s).port = s.port := rfl

@[simp] theorem updateRelay_pending (i : Nat) (f : RelayItem → RelayItem) : (updateRelay i f s).pending = s.pending := rfl
@[simp] theorem updateRelay_pins (i : Nat) (f : RelayItem → RelayItem) : (updateRelay i f s).pins = s.pins := rfl
@[simp] theorem updateRelay_inputs (i : Nat) (f : RelayItem → RelayItem) : (updateRelay i f s).inputs = s.inputs := rfl
@[simp] theorem updateRelay_refclk (i : Nat) (f : RelayItem → RelayItem) : (updateRelay i f s).refclk = s.refclk := rfl
@[simp] theorem updateRelay_drawCount (i : Nat) (f : RelayItem → RelayItem) : (updateRelay i f s).drawCount = s.drawCount := rfl
@[simp] theorem updateRelay_choiceCount (i : Nat) (f : RelayItem → RelayItem) : (updateRelay i f s).choiceCount = s.choiceCount := rfl
@[simp] theorem updateRelay_orderCount (i : Nat) (f : RelayItem → RelayItem) : (updateRelay i f s).orderCount = s.orderCount := rfl
@[simp] theorem updateRelay_station (i : Nat) (f : RelayItem → RelayItem) : (updateRelay i f s).station = s.station := rfl
@[simp] theorem updateRelay_counters (i : Nat) (f : RelayItem → RelayItem) : (updateRelay i f s).counters = s.counters := rfl
@[simp] theorem updateRelay_flags (i : Nat) (f : RelayItem → RelayItem) : (updateRelay i f s).flags = s.flags := rfl
@[simp] theorem updateRelay_line (i : Nat) (f : RelayItem → RelayItem) : (updateRelay i f s).line = s.line := rfl
@[simp] theorem updateRelay_assembler (i : Nat) (f : RelayItem → RelayItem) : (updateRelay i f s).assembler = s.assembler := rfl
@[simp] theorem updateRelay_table (i : Nat) (f : RelayItem → RelayItem) : (updateRelay i f s).table = s.table := rfl
@[simp] theorem updateRelay_decodeQueue (i : Nat) (f : RelayItem → RelayItem) : (updateRelay i f s).decodeQueue = s.decodeQueue := rfl
@[simp] theorem updateRelay_decoder (i : Nat) (f : RelayItem → RelayItem) : (updateRelay i f s).decoder = s.decoder := rfl
@[simp] theorem updateRelay_history (i : Nat) (f : RelayItem → RelayItem) : (updateRelay i f s).history = s.history := rfl
@[simp] theorem updateRelay_slots (i : Nat) (f : RelayItem → RelayItem) : (updateRelay i f s).slots = s.slots := rfl
@[simp] theorem updateRelay_inbox (i : Nat) (f : RelayItem → RelayItem) : (updateRelay i f s).inbox = s.inbox := rfl
@[simp] theorem updateRelay_relays (i : Nat) (f : RelayItem → RelayItem) : (updateRelay i f s).relays = s.relays.modify i (Option.map f) := rfl
@[simp] theorem updateRelay_outbox (i : Nat) (f : RelayItem → RelayItem) : (updateRelay i f s).outbox = s.outbox := rfl
@[simp] theorem updateRelay_reports (i : Nat) (f : RelayItem → RelayItem) : (updateRelay i f s).reports = s.reports := rfl
@[simp] theorem updateRelay_transmit (i : Nat) (f : RelayItem → RelayItem) : (updateRelay i f s).transmit = s.transmit := rfl
@[simp] theorem updateRelay_port (i : Nat) (f : RelayItem → RelayItem) : (updateRelay i f s).port = s.port := rfl

@[simp] theorem updateOrigin_pending (i : Nat) (f : OriginItem → OriginItem) : (updateOrigin i f s).pending = s.pending := rfl
@[simp] theorem updateOrigin_pins (i : Nat) (f : OriginItem → OriginItem) : (updateOrigin i f s).pins = s.pins := rfl
@[simp] theorem updateOrigin_inputs (i : Nat) (f : OriginItem → OriginItem) : (updateOrigin i f s).inputs = s.inputs := rfl
@[simp] theorem updateOrigin_refclk (i : Nat) (f : OriginItem → OriginItem) : (updateOrigin i f s).refclk = s.refclk := rfl
@[simp] theorem updateOrigin_drawCount (i : Nat) (f : OriginItem → OriginItem) : (updateOrigin i f s).drawCount = s.drawCount := rfl
@[simp] theorem updateOrigin_choiceCount (i : Nat) (f : OriginItem → OriginItem) : (updateOrigin i f s).choiceCount = s.choiceCount := rfl
@[simp] theorem updateOrigin_orderCount (i : Nat) (f : OriginItem → OriginItem) : (updateOrigin i f s).orderCount = s.orderCount := rfl
@[simp] theorem updateOrigin_station (i : Nat) (f : OriginItem → OriginItem) : (updateOrigin i f s).station = s.station := rfl
@[simp] theorem updateOrigin_counters (i : Nat) (f : OriginItem → OriginItem) : (updateOrigin i f s).counters = s.counters := rfl
@[simp] theorem updateOrigin_flags (i : Nat) (f : OriginItem → OriginItem) : (updateOrigin i f s).flags = s.flags := rfl
@[simp] theorem updateOrigin_line (i : Nat) (f : OriginItem → OriginItem) : (updateOrigin i f s).line = s.line := rfl
@[simp] theorem updateOrigin_assembler (i : Nat) (f : OriginItem → OriginItem) : (updateOrigin i f s).assembler = s.assembler := rfl
@[simp] theorem updateOrigin_table (i : Nat) (f : OriginItem → OriginItem) : (updateOrigin i f s).table = s.table := rfl
@[simp] theorem updateOrigin_decodeQueue (i : Nat) (f : OriginItem → OriginItem) : (updateOrigin i f s).decodeQueue = s.decodeQueue := rfl
@[simp] theorem updateOrigin_decoder (i : Nat) (f : OriginItem → OriginItem) : (updateOrigin i f s).decoder = s.decoder := rfl
@[simp] theorem updateOrigin_history (i : Nat) (f : OriginItem → OriginItem) : (updateOrigin i f s).history = s.history := rfl
@[simp] theorem updateOrigin_slots (i : Nat) (f : OriginItem → OriginItem) : (updateOrigin i f s).slots = s.slots := rfl
@[simp] theorem updateOrigin_inbox (i : Nat) (f : OriginItem → OriginItem) : (updateOrigin i f s).inbox = s.inbox := rfl
@[simp] theorem updateOrigin_relays (i : Nat) (f : OriginItem → OriginItem) : (updateOrigin i f s).relays = s.relays := rfl
@[simp] theorem updateOrigin_outbox (i : Nat) (f : OriginItem → OriginItem) : (updateOrigin i f s).outbox = s.outbox.modify i f := rfl
@[simp] theorem updateOrigin_reports (i : Nat) (f : OriginItem → OriginItem) : (updateOrigin i f s).reports = s.reports := rfl
@[simp] theorem updateOrigin_transmit (i : Nat) (f : OriginItem → OriginItem) : (updateOrigin i f s).transmit = s.transmit := rfl
@[simp] theorem updateOrigin_port (i : Nat) (f : OriginItem → OriginItem) : (updateOrigin i f s).port = s.port := rfl

@[simp] theorem putEntry_pending (i : Nat) (e : Option Entry) : (putEntry i e s).pending = s.pending := rfl
@[simp] theorem putEntry_pins (i : Nat) (e : Option Entry) : (putEntry i e s).pins = s.pins := rfl
@[simp] theorem putEntry_inputs (i : Nat) (e : Option Entry) : (putEntry i e s).inputs = s.inputs := rfl
@[simp] theorem putEntry_refclk (i : Nat) (e : Option Entry) : (putEntry i e s).refclk = s.refclk := rfl
@[simp] theorem putEntry_drawCount (i : Nat) (e : Option Entry) : (putEntry i e s).drawCount = s.drawCount := rfl
@[simp] theorem putEntry_choiceCount (i : Nat) (e : Option Entry) : (putEntry i e s).choiceCount = s.choiceCount := rfl
@[simp] theorem putEntry_orderCount (i : Nat) (e : Option Entry) : (putEntry i e s).orderCount = s.orderCount := rfl
@[simp] theorem putEntry_station (i : Nat) (e : Option Entry) : (putEntry i e s).station = s.station := rfl
@[simp] theorem putEntry_counters (i : Nat) (e : Option Entry) : (putEntry i e s).counters = s.counters := rfl
@[simp] theorem putEntry_flags (i : Nat) (e : Option Entry) : (putEntry i e s).flags = s.flags := rfl
@[simp] theorem putEntry_line (i : Nat) (e : Option Entry) : (putEntry i e s).line = s.line := rfl
@[simp] theorem putEntry_assembler (i : Nat) (e : Option Entry) : (putEntry i e s).assembler = s.assembler := rfl
@[simp] theorem putEntry_table (i : Nat) (e : Option Entry) : (putEntry i e s).table = s.table.set i e := rfl
@[simp] theorem putEntry_decodeQueue (i : Nat) (e : Option Entry) : (putEntry i e s).decodeQueue = s.decodeQueue := rfl
@[simp] theorem putEntry_decoder (i : Nat) (e : Option Entry) : (putEntry i e s).decoder = s.decoder := rfl
@[simp] theorem putEntry_history (i : Nat) (e : Option Entry) : (putEntry i e s).history = s.history := rfl
@[simp] theorem putEntry_slots (i : Nat) (e : Option Entry) : (putEntry i e s).slots = s.slots := rfl
@[simp] theorem putEntry_inbox (i : Nat) (e : Option Entry) : (putEntry i e s).inbox = s.inbox := rfl
@[simp] theorem putEntry_relays (i : Nat) (e : Option Entry) : (putEntry i e s).relays = s.relays := rfl
@[simp] theorem putEntry_outbox (i : Nat) (e : Option Entry) : (putEntry i e s).outbox = s.outbox := rfl
@[simp] theorem putEntry_reports (i : Nat) (e : Option Entry) : (putEntry i e s).reports = s.reports := rfl
@[simp] theorem putEntry_transmit (i : Nat) (e : Option Entry) : (putEntry i e s).transmit = s.transmit := rfl
@[simp] theorem putEntry_port (i : Nat) (e : Option Entry) : (putEntry i e s).port = s.port := rfl

@[simp] theorem enqueue_pending (i : Nat) (e : Entry) : (enqueue i e s).pending = s.pending := rfl
@[simp] theorem enqueue_pins (i : Nat) (e : Entry) : (enqueue i e s).pins = s.pins := rfl
@[simp] theorem enqueue_inputs (i : Nat) (e : Entry) : (enqueue i e s).inputs = s.inputs := rfl
@[simp] theorem enqueue_refclk (i : Nat) (e : Entry) : (enqueue i e s).refclk = s.refclk := rfl
@[simp] theorem enqueue_drawCount (i : Nat) (e : Entry) : (enqueue i e s).drawCount = s.drawCount := rfl
@[simp] theorem enqueue_choiceCount (i : Nat) (e : Entry) : (enqueue i e s).choiceCount = s.choiceCount := rfl
@[simp] theorem enqueue_orderCount (i : Nat) (e : Entry) : (enqueue i e s).orderCount = s.orderCount := rfl
@[simp] theorem enqueue_station (i : Nat) (e : Entry) : (enqueue i e s).station = s.station := rfl
@[simp] theorem enqueue_counters (i : Nat) (e : Entry) : (enqueue i e s).counters = s.counters := rfl
@[simp] theorem enqueue_flags (i : Nat) (e : Entry) : (enqueue i e s).flags = s.flags := rfl
@[simp] theorem enqueue_line (i : Nat) (e : Entry) : (enqueue i e s).line = s.line := rfl
@[simp] theorem enqueue_assembler (i : Nat) (e : Entry) : (enqueue i e s).assembler = s.assembler := rfl
@[simp] theorem enqueue_table (i : Nat) (e : Entry) : (enqueue i e s).table = s.table.set i (some { e with state := .queued }) := rfl
@[simp] theorem enqueue_decodeQueue (i : Nat) (e : Entry) : (enqueue i e s).decodeQueue = s.decodeQueue ++ [i] := rfl
@[simp] theorem enqueue_decoder (i : Nat) (e : Entry) : (enqueue i e s).decoder = s.decoder := rfl
@[simp] theorem enqueue_history (i : Nat) (e : Entry) : (enqueue i e s).history = s.history := rfl
@[simp] theorem enqueue_slots (i : Nat) (e : Entry) : (enqueue i e s).slots = s.slots := rfl
@[simp] theorem enqueue_inbox (i : Nat) (e : Entry) : (enqueue i e s).inbox = s.inbox := rfl
@[simp] theorem enqueue_relays (i : Nat) (e : Entry) : (enqueue i e s).relays = s.relays := rfl
@[simp] theorem enqueue_outbox (i : Nat) (e : Entry) : (enqueue i e s).outbox = s.outbox := rfl
@[simp] theorem enqueue_reports (i : Nat) (e : Entry) : (enqueue i e s).reports = s.reports := rfl
@[simp] theorem enqueue_transmit (i : Nat) (e : Entry) : (enqueue i e s).transmit = s.transmit := rfl
@[simp] theorem enqueue_port (i : Nat) (e : Entry) : (enqueue i e s).port = s.port := rfl

@[simp] theorem setController_pending (c : Controller) : (setController c s).pending = s.pending := rfl
@[simp] theorem setController_pins (c : Controller) : (setController c s).pins = s.pins := rfl
@[simp] theorem setController_inputs (c : Controller) : (setController c s).inputs = s.inputs := rfl
@[simp] theorem setController_refclk (c : Controller) : (setController c s).refclk = s.refclk := rfl
@[simp] theorem setController_drawCount (c : Controller) : (setController c s).drawCount = s.drawCount := rfl
@[simp] theorem setController_choiceCount (c : Controller) : (setController c s).choiceCount = s.choiceCount := rfl
@[simp] theorem setController_orderCount (c : Controller) : (setController c s).orderCount = s.orderCount := rfl
@[simp] theorem setController_station (c : Controller) : (setController c s).station = s.station := rfl
@[simp] theorem setController_counters (c : Controller) : (setController c s).counters = s.counters := rfl
@[simp] theorem setController_flags (c : Controller) : (setController c s).flags = s.flags := rfl
@[simp] theorem setController_line (c : Controller) : (setController c s).line = s.line := rfl
@[simp] theorem setController_assembler (c : Controller) : (setController c s).assembler = s.assembler := rfl
@[simp] theorem setController_table (c : Controller) : (setController c s).table = s.table := rfl
@[simp] theorem setController_decodeQueue (c : Controller) : (setController c s).decodeQueue = s.decodeQueue := rfl
@[simp] theorem setController_decoder (c : Controller) : (setController c s).decoder = s.decoder := rfl
@[simp] theorem setController_history (c : Controller) : (setController c s).history = s.history := rfl
@[simp] theorem setController_slots (c : Controller) : (setController c s).slots = s.slots := rfl
@[simp] theorem setController_inbox (c : Controller) : (setController c s).inbox = s.inbox := rfl
@[simp] theorem setController_relays (c : Controller) : (setController c s).relays = s.relays := rfl
@[simp] theorem setController_outbox (c : Controller) : (setController c s).outbox = s.outbox := rfl
@[simp] theorem setController_reports (c : Controller) : (setController c s).reports = s.reports := rfl
@[simp] theorem setController_transmit (c : Controller) : (setController c s).transmit = { s.transmit with controller := c } := rfl
@[simp] theorem setController_port (c : Controller) : (setController c s).port = s.port := rfl

@[simp] theorem setLine_pending (l : Line) : (setLine l s).pending = s.pending := rfl
@[simp] theorem setLine_pins (l : Line) : (setLine l s).pins = s.pins := rfl
@[simp] theorem setLine_inputs (l : Line) : (setLine l s).inputs = s.inputs := rfl
@[simp] theorem setLine_refclk (l : Line) : (setLine l s).refclk = s.refclk := rfl
@[simp] theorem setLine_drawCount (l : Line) : (setLine l s).drawCount = s.drawCount := rfl
@[simp] theorem setLine_choiceCount (l : Line) : (setLine l s).choiceCount = s.choiceCount := rfl
@[simp] theorem setLine_orderCount (l : Line) : (setLine l s).orderCount = s.orderCount := rfl
@[simp] theorem setLine_station (l : Line) : (setLine l s).station = s.station := rfl
@[simp] theorem setLine_counters (l : Line) : (setLine l s).counters = s.counters := rfl
@[simp] theorem setLine_flags (l : Line) : (setLine l s).flags = s.flags := rfl
@[simp] theorem setLine_line (l : Line) : (setLine l s).line = l := rfl
@[simp] theorem setLine_assembler (l : Line) : (setLine l s).assembler = s.assembler := rfl
@[simp] theorem setLine_table (l : Line) : (setLine l s).table = s.table := rfl
@[simp] theorem setLine_decodeQueue (l : Line) : (setLine l s).decodeQueue = s.decodeQueue := rfl
@[simp] theorem setLine_decoder (l : Line) : (setLine l s).decoder = s.decoder := rfl
@[simp] theorem setLine_history (l : Line) : (setLine l s).history = s.history := rfl
@[simp] theorem setLine_slots (l : Line) : (setLine l s).slots = s.slots := rfl
@[simp] theorem setLine_inbox (l : Line) : (setLine l s).inbox = s.inbox := rfl
@[simp] theorem setLine_relays (l : Line) : (setLine l s).relays = s.relays := rfl
@[simp] theorem setLine_outbox (l : Line) : (setLine l s).outbox = s.outbox := rfl
@[simp] theorem setLine_reports (l : Line) : (setLine l s).reports = s.reports := rfl
@[simp] theorem setLine_transmit (l : Line) : (setLine l s).transmit = s.transmit := rfl
@[simp] theorem setLine_port (l : Line) : (setLine l s).port = s.port := rfl

@[simp] theorem setAssembler_pending (a : Assembler) : (setAssembler a s).pending = s.pending := rfl
@[simp] theorem setAssembler_pins (a : Assembler) : (setAssembler a s).pins = s.pins := rfl
@[simp] theorem setAssembler_inputs (a : Assembler) : (setAssembler a s).inputs = s.inputs := rfl
@[simp] theorem setAssembler_refclk (a : Assembler) : (setAssembler a s).refclk = s.refclk := rfl
@[simp] theorem setAssembler_drawCount (a : Assembler) : (setAssembler a s).drawCount = s.drawCount := rfl
@[simp] theorem setAssembler_choiceCount (a : Assembler) : (setAssembler a s).choiceCount = s.choiceCount := rfl
@[simp] theorem setAssembler_orderCount (a : Assembler) : (setAssembler a s).orderCount = s.orderCount := rfl
@[simp] theorem setAssembler_station (a : Assembler) : (setAssembler a s).station = s.station := rfl
@[simp] theorem setAssembler_counters (a : Assembler) : (setAssembler a s).counters = s.counters := rfl
@[simp] theorem setAssembler_flags (a : Assembler) : (setAssembler a s).flags = s.flags := rfl
@[simp] theorem setAssembler_line (a : Assembler) : (setAssembler a s).line = s.line := rfl
@[simp] theorem setAssembler_assembler (a : Assembler) : (setAssembler a s).assembler = a := rfl
@[simp] theorem setAssembler_table (a : Assembler) : (setAssembler a s).table = s.table := rfl
@[simp] theorem setAssembler_decodeQueue (a : Assembler) : (setAssembler a s).decodeQueue = s.decodeQueue := rfl
@[simp] theorem setAssembler_decoder (a : Assembler) : (setAssembler a s).decoder = s.decoder := rfl
@[simp] theorem setAssembler_history (a : Assembler) : (setAssembler a s).history = s.history := rfl
@[simp] theorem setAssembler_slots (a : Assembler) : (setAssembler a s).slots = s.slots := rfl
@[simp] theorem setAssembler_inbox (a : Assembler) : (setAssembler a s).inbox = s.inbox := rfl
@[simp] theorem setAssembler_relays (a : Assembler) : (setAssembler a s).relays = s.relays := rfl
@[simp] theorem setAssembler_outbox (a : Assembler) : (setAssembler a s).outbox = s.outbox := rfl
@[simp] theorem setAssembler_reports (a : Assembler) : (setAssembler a s).reports = s.reports := rfl
@[simp] theorem setAssembler_transmit (a : Assembler) : (setAssembler a s).transmit = s.transmit := rfl
@[simp] theorem setAssembler_port (a : Assembler) : (setAssembler a s).port = s.port := rfl

@[simp] theorem setPort_pending (p : Port) : (setPort p s).pending = s.pending := rfl
@[simp] theorem setPort_pins (p : Port) : (setPort p s).pins = s.pins := rfl
@[simp] theorem setPort_inputs (p : Port) : (setPort p s).inputs = s.inputs := rfl
@[simp] theorem setPort_refclk (p : Port) : (setPort p s).refclk = s.refclk := rfl
@[simp] theorem setPort_drawCount (p : Port) : (setPort p s).drawCount = s.drawCount := rfl
@[simp] theorem setPort_choiceCount (p : Port) : (setPort p s).choiceCount = s.choiceCount := rfl
@[simp] theorem setPort_orderCount (p : Port) : (setPort p s).orderCount = s.orderCount := rfl
@[simp] theorem setPort_station (p : Port) : (setPort p s).station = s.station := rfl
@[simp] theorem setPort_counters (p : Port) : (setPort p s).counters = s.counters := rfl
@[simp] theorem setPort_flags (p : Port) : (setPort p s).flags = s.flags := rfl
@[simp] theorem setPort_line (p : Port) : (setPort p s).line = s.line := rfl
@[simp] theorem setPort_assembler (p : Port) : (setPort p s).assembler = s.assembler := rfl
@[simp] theorem setPort_table (p : Port) : (setPort p s).table = s.table := rfl
@[simp] theorem setPort_decodeQueue (p : Port) : (setPort p s).decodeQueue = s.decodeQueue := rfl
@[simp] theorem setPort_decoder (p : Port) : (setPort p s).decoder = s.decoder := rfl
@[simp] theorem setPort_history (p : Port) : (setPort p s).history = s.history := rfl
@[simp] theorem setPort_slots (p : Port) : (setPort p s).slots = s.slots := rfl
@[simp] theorem setPort_inbox (p : Port) : (setPort p s).inbox = s.inbox := rfl
@[simp] theorem setPort_relays (p : Port) : (setPort p s).relays = s.relays := rfl
@[simp] theorem setPort_outbox (p : Port) : (setPort p s).outbox = s.outbox := rfl
@[simp] theorem setPort_reports (p : Port) : (setPort p s).reports = s.reports := rfl
@[simp] theorem setPort_transmit (p : Port) : (setPort p s).transmit = s.transmit := rfl
@[simp] theorem setPort_port (p : Port) : (setPort p s).port = p := rfl

@[simp] theorem setDemodIn_pending (b : Bool) : (setDemodIn b s).pending = s.pending := rfl
@[simp] theorem setDemodIn_pins (b : Bool) : (setDemodIn b s).pins = { s.pins with demodIn := b } := rfl
@[simp] theorem setDemodIn_inputs (b : Bool) : (setDemodIn b s).inputs = s.inputs := rfl
@[simp] theorem setDemodIn_refclk (b : Bool) : (setDemodIn b s).refclk = s.refclk := rfl
@[simp] theorem setDemodIn_drawCount (b : Bool) : (setDemodIn b s).drawCount = s.drawCount := rfl
@[simp] theorem setDemodIn_choiceCount (b : Bool) : (setDemodIn b s).choiceCount = s.choiceCount := rfl
@[simp] theorem setDemodIn_orderCount (b : Bool) : (setDemodIn b s).orderCount = s.orderCount := rfl
@[simp] theorem setDemodIn_station (b : Bool) : (setDemodIn b s).station = s.station := rfl
@[simp] theorem setDemodIn_counters (b : Bool) : (setDemodIn b s).counters = s.counters := rfl
@[simp] theorem setDemodIn_flags (b : Bool) : (setDemodIn b s).flags = s.flags := rfl
@[simp] theorem setDemodIn_line (b : Bool) : (setDemodIn b s).line = s.line := rfl
@[simp] theorem setDemodIn_assembler (b : Bool) : (setDemodIn b s).assembler = s.assembler := rfl
@[simp] theorem setDemodIn_table (b : Bool) : (setDemodIn b s).table = s.table := rfl
@[simp] theorem setDemodIn_decodeQueue (b : Bool) : (setDemodIn b s).decodeQueue = s.decodeQueue := rfl
@[simp] theorem setDemodIn_decoder (b : Bool) : (setDemodIn b s).decoder = s.decoder := rfl
@[simp] theorem setDemodIn_history (b : Bool) : (setDemodIn b s).history = s.history := rfl
@[simp] theorem setDemodIn_slots (b : Bool) : (setDemodIn b s).slots = s.slots := rfl
@[simp] theorem setDemodIn_inbox (b : Bool) : (setDemodIn b s).inbox = s.inbox := rfl
@[simp] theorem setDemodIn_relays (b : Bool) : (setDemodIn b s).relays = s.relays := rfl
@[simp] theorem setDemodIn_outbox (b : Bool) : (setDemodIn b s).outbox = s.outbox := rfl
@[simp] theorem setDemodIn_reports (b : Bool) : (setDemodIn b s).reports = s.reports := rfl
@[simp] theorem setDemodIn_transmit (b : Bool) : (setDemodIn b s).transmit = s.transmit := rfl
@[simp] theorem setDemodIn_port (b : Bool) : (setDemodIn b s).port = s.port := rfl

@[simp] theorem setRstn_pending (b : Bool) : (setRstn b s).pending = s.pending := rfl
@[simp] theorem setRstn_pins (b : Bool) : (setRstn b s).pins = { s.pins with rstn := b } := rfl
@[simp] theorem setRstn_inputs (b : Bool) : (setRstn b s).inputs = s.inputs := rfl
@[simp] theorem setRstn_refclk (b : Bool) : (setRstn b s).refclk = s.refclk := rfl
@[simp] theorem setRstn_drawCount (b : Bool) : (setRstn b s).drawCount = s.drawCount := rfl
@[simp] theorem setRstn_choiceCount (b : Bool) : (setRstn b s).choiceCount = s.choiceCount := rfl
@[simp] theorem setRstn_orderCount (b : Bool) : (setRstn b s).orderCount = s.orderCount := rfl
@[simp] theorem setRstn_station (b : Bool) : (setRstn b s).station = s.station := rfl
@[simp] theorem setRstn_counters (b : Bool) : (setRstn b s).counters = s.counters := rfl
@[simp] theorem setRstn_flags (b : Bool) : (setRstn b s).flags = s.flags := rfl
@[simp] theorem setRstn_line (b : Bool) : (setRstn b s).line = s.line := rfl
@[simp] theorem setRstn_assembler (b : Bool) : (setRstn b s).assembler = s.assembler := rfl
@[simp] theorem setRstn_table (b : Bool) : (setRstn b s).table = s.table := rfl
@[simp] theorem setRstn_decodeQueue (b : Bool) : (setRstn b s).decodeQueue = s.decodeQueue := rfl
@[simp] theorem setRstn_decoder (b : Bool) : (setRstn b s).decoder = s.decoder := rfl
@[simp] theorem setRstn_history (b : Bool) : (setRstn b s).history = s.history := rfl
@[simp] theorem setRstn_slots (b : Bool) : (setRstn b s).slots = s.slots := rfl
@[simp] theorem setRstn_inbox (b : Bool) : (setRstn b s).inbox = s.inbox := rfl
@[simp] theorem setRstn_relays (b : Bool) : (setRstn b s).relays = s.relays := rfl
@[simp] theorem setRstn_outbox (b : Bool) : (setRstn b s).outbox = s.outbox := rfl
@[simp] theorem setRstn_reports (b : Bool) : (setRstn b s).reports = s.reports := rfl
@[simp] theorem setRstn_transmit (b : Bool) : (setRstn b s).transmit = s.transmit := rfl
@[simp] theorem setRstn_port (b : Bool) : (setRstn b s).port = s.port := rfl

@[simp] theorem setCsn_pending (b : Bool) : (setCsn b s).pending = s.pending := rfl
@[simp] theorem setCsn_pins (b : Bool) : (setCsn b s).pins = { s.pins with csn := b } := rfl
@[simp] theorem setCsn_inputs (b : Bool) : (setCsn b s).inputs = s.inputs := rfl
@[simp] theorem setCsn_refclk (b : Bool) : (setCsn b s).refclk = s.refclk := rfl
@[simp] theorem setCsn_drawCount (b : Bool) : (setCsn b s).drawCount = s.drawCount := rfl
@[simp] theorem setCsn_choiceCount (b : Bool) : (setCsn b s).choiceCount = s.choiceCount := rfl
@[simp] theorem setCsn_orderCount (b : Bool) : (setCsn b s).orderCount = s.orderCount := rfl
@[simp] theorem setCsn_station (b : Bool) : (setCsn b s).station = s.station := rfl
@[simp] theorem setCsn_counters (b : Bool) : (setCsn b s).counters = s.counters := rfl
@[simp] theorem setCsn_flags (b : Bool) : (setCsn b s).flags = s.flags := rfl
@[simp] theorem setCsn_line (b : Bool) : (setCsn b s).line = s.line := rfl
@[simp] theorem setCsn_assembler (b : Bool) : (setCsn b s).assembler = s.assembler := rfl
@[simp] theorem setCsn_table (b : Bool) : (setCsn b s).table = s.table := rfl
@[simp] theorem setCsn_decodeQueue (b : Bool) : (setCsn b s).decodeQueue = s.decodeQueue := rfl
@[simp] theorem setCsn_decoder (b : Bool) : (setCsn b s).decoder = s.decoder := rfl
@[simp] theorem setCsn_history (b : Bool) : (setCsn b s).history = s.history := rfl
@[simp] theorem setCsn_slots (b : Bool) : (setCsn b s).slots = s.slots := rfl
@[simp] theorem setCsn_inbox (b : Bool) : (setCsn b s).inbox = s.inbox := rfl
@[simp] theorem setCsn_relays (b : Bool) : (setCsn b s).relays = s.relays := rfl
@[simp] theorem setCsn_outbox (b : Bool) : (setCsn b s).outbox = s.outbox := rfl
@[simp] theorem setCsn_reports (b : Bool) : (setCsn b s).reports = s.reports := rfl
@[simp] theorem setCsn_transmit (b : Bool) : (setCsn b s).transmit = s.transmit := rfl
@[simp] theorem setCsn_port (b : Bool) : (setCsn b s).port = { s.port with csnSeen := b } := rfl

@[simp] theorem takePins_pending : (takePins s).pending = s.pending := rfl
@[simp] theorem takePins_pins : (takePins s).pins = s.inputs.headD s.pins := rfl
@[simp] theorem takePins_inputs : (takePins s).inputs = s.inputs.tail := rfl
@[simp] theorem takePins_refclk : (takePins s).refclk = s.refclk := rfl
@[simp] theorem takePins_drawCount : (takePins s).drawCount = s.drawCount := rfl
@[simp] theorem takePins_choiceCount : (takePins s).choiceCount = s.choiceCount := rfl
@[simp] theorem takePins_orderCount : (takePins s).orderCount = s.orderCount := rfl
@[simp] theorem takePins_station : (takePins s).station = s.station := rfl
@[simp] theorem takePins_counters : (takePins s).counters = s.counters := rfl
@[simp] theorem takePins_flags : (takePins s).flags = s.flags := rfl
@[simp] theorem takePins_line : (takePins s).line = s.line := rfl
@[simp] theorem takePins_assembler : (takePins s).assembler = s.assembler := rfl
@[simp] theorem takePins_table : (takePins s).table = s.table := rfl
@[simp] theorem takePins_decodeQueue : (takePins s).decodeQueue = s.decodeQueue := rfl
@[simp] theorem takePins_decoder : (takePins s).decoder = s.decoder := rfl
@[simp] theorem takePins_history : (takePins s).history = s.history := rfl
@[simp] theorem takePins_slots : (takePins s).slots = s.slots := rfl
@[simp] theorem takePins_inbox : (takePins s).inbox = s.inbox := rfl
@[simp] theorem takePins_relays : (takePins s).relays = s.relays := rfl
@[simp] theorem takePins_outbox : (takePins s).outbox = s.outbox := rfl
@[simp] theorem takePins_reports : (takePins s).reports = s.reports := rfl
@[simp] theorem takePins_transmit : (takePins s).transmit = s.transmit := rfl
@[simp] theorem takePins_port : (takePins s).port = s.port := rfl

@[simp] theorem hearEcho_pending (q : Sequence) : (hearEcho q s).pending = s.pending := rfl
@[simp] theorem hearEcho_pins (q : Sequence) : (hearEcho q s).pins = s.pins := rfl
@[simp] theorem hearEcho_inputs (q : Sequence) : (hearEcho q s).inputs = s.inputs := rfl
@[simp] theorem hearEcho_refclk (q : Sequence) : (hearEcho q s).refclk = s.refclk := rfl
@[simp] theorem hearEcho_drawCount (q : Sequence) : (hearEcho q s).drawCount = s.drawCount := rfl
@[simp] theorem hearEcho_choiceCount (q : Sequence) : (hearEcho q s).choiceCount = s.choiceCount := rfl
@[simp] theorem hearEcho_orderCount (q : Sequence) : (hearEcho q s).orderCount = s.orderCount := rfl
@[simp] theorem hearEcho_station (q : Sequence) : (hearEcho q s).station = s.station := rfl
@[simp] theorem hearEcho_counters (q : Sequence) : (hearEcho q s).counters = s.counters := rfl
@[simp] theorem hearEcho_flags (q : Sequence) : (hearEcho q s).flags = s.flags := rfl
@[simp] theorem hearEcho_line (q : Sequence) : (hearEcho q s).line = s.line := rfl
@[simp] theorem hearEcho_assembler (q : Sequence) : (hearEcho q s).assembler = s.assembler := rfl
@[simp] theorem hearEcho_table (q : Sequence) : (hearEcho q s).table = s.table := rfl
@[simp] theorem hearEcho_decodeQueue (q : Sequence) : (hearEcho q s).decodeQueue = s.decodeQueue := rfl
@[simp] theorem hearEcho_decoder (q : Sequence) : (hearEcho q s).decoder = s.decoder := rfl
@[simp] theorem hearEcho_history (q : Sequence) : (hearEcho q s).history = s.history := rfl
@[simp] theorem hearEcho_slots (q : Sequence) : (hearEcho q s).slots = s.slots := rfl
@[simp] theorem hearEcho_inbox (q : Sequence) : (hearEcho q s).inbox = s.inbox := rfl
@[simp] theorem hearEcho_relays (q : Sequence) : (hearEcho q s).relays = s.relays := rfl
@[simp] theorem hearEcho_outbox (q : Sequence) : (hearEcho q s).outbox = s.outbox.map (fun o => o.hearEcho q) := rfl
@[simp] theorem hearEcho_reports (q : Sequence) : (hearEcho q s).reports = s.reports := rfl
@[simp] theorem hearEcho_transmit (q : Sequence) : (hearEcho q s).transmit = s.transmit := rfl
@[simp] theorem hearEcho_port (q : Sequence) : (hearEcho q s).port = s.port := rfl

@[simp] theorem hearDuplicate_pending (k : Key) : (hearDuplicate k s).pending = s.pending := rfl
@[simp] theorem hearDuplicate_pins (k : Key) : (hearDuplicate k s).pins = s.pins := rfl
@[simp] theorem hearDuplicate_inputs (k : Key) : (hearDuplicate k s).inputs = s.inputs := rfl
@[simp] theorem hearDuplicate_refclk (k : Key) : (hearDuplicate k s).refclk = s.refclk := rfl
@[simp] theorem hearDuplicate_drawCount (k : Key) : (hearDuplicate k s).drawCount = s.drawCount := rfl
@[simp] theorem hearDuplicate_choiceCount (k : Key) : (hearDuplicate k s).choiceCount = s.choiceCount := rfl
@[simp] theorem hearDuplicate_orderCount (k : Key) : (hearDuplicate k s).orderCount = s.orderCount := rfl
@[simp] theorem hearDuplicate_station (k : Key) : (hearDuplicate k s).station = s.station := rfl
@[simp] theorem hearDuplicate_counters (k : Key) : (hearDuplicate k s).counters = s.counters := rfl
@[simp] theorem hearDuplicate_flags (k : Key) : (hearDuplicate k s).flags = s.flags := rfl
@[simp] theorem hearDuplicate_line (k : Key) : (hearDuplicate k s).line = s.line := rfl
@[simp] theorem hearDuplicate_assembler (k : Key) : (hearDuplicate k s).assembler = s.assembler := rfl
@[simp] theorem hearDuplicate_table (k : Key) : (hearDuplicate k s).table = s.table := rfl
@[simp] theorem hearDuplicate_decodeQueue (k : Key) : (hearDuplicate k s).decodeQueue = s.decodeQueue := rfl
@[simp] theorem hearDuplicate_decoder (k : Key) : (hearDuplicate k s).decoder = s.decoder := rfl
@[simp] theorem hearDuplicate_history (k : Key) : (hearDuplicate k s).history = s.history := rfl
@[simp] theorem hearDuplicate_slots (k : Key) : (hearDuplicate k s).slots = s.slots := rfl
@[simp] theorem hearDuplicate_inbox (k : Key) : (hearDuplicate k s).inbox = s.inbox := rfl
@[simp] theorem hearDuplicate_relays (k : Key) : (hearDuplicate k s).relays = s.relays.map (Option.map fun item => item.hear k) := rfl
@[simp] theorem hearDuplicate_outbox (k : Key) : (hearDuplicate k s).outbox = s.outbox := rfl
@[simp] theorem hearDuplicate_reports (k : Key) : (hearDuplicate k s).reports = s.reports := rfl
@[simp] theorem hearDuplicate_transmit (k : Key) : (hearDuplicate k s).transmit = s.transmit := rfl
@[simp] theorem hearDuplicate_port (k : Key) : (hearDuplicate k s).port = s.port := rfl

end Sys2Proof.Machine
end

