-- ==== Sys2Proof/Laws/Frames.lean ====
section
/-! SUPPORT. What each shared operation can change: one frame lemma per operation, and from it one lemma per field it
leaves alone. -/

namespace Sys2Proof.Machine

variable (s : State)

/-- What `evict` can change. -/
theorem evict_frame :
    ∃ x0 x1 x2, evict s = { s with counters := x0, table := x1, decodeQueue := x2 } := by
  unfold evict
  repeat' (first | split | dsimp only)
  all_goals
    (repeat' apply Exists.intro)
    apply State.ext <;> first | with_reducible rfl | simp
@[simp] theorem evict_pending : (evict s).pending = s.pending := by
  obtain ⟨_, _, _, h⟩ := evict_frame s; rw [h]
@[simp] theorem evict_pins : (evict s).pins = s.pins := by
  obtain ⟨_, _, _, h⟩ := evict_frame s; rw [h]
@[simp] theorem evict_inputs : (evict s).inputs = s.inputs := by
  obtain ⟨_, _, _, h⟩ := evict_frame s; rw [h]
@[simp] theorem evict_refclk : (evict s).refclk = s.refclk := by
  obtain ⟨_, _, _, h⟩ := evict_frame s; rw [h]
@[simp] theorem evict_drawCount : (evict s).drawCount = s.drawCount := by
  obtain ⟨_, _, _, h⟩ := evict_frame s; rw [h]
@[simp] theorem evict_choiceCount : (evict s).choiceCount = s.choiceCount := by
  obtain ⟨_, _, _, h⟩ := evict_frame s; rw [h]
@[simp] theorem evict_orderCount : (evict s).orderCount = s.orderCount := by
  obtain ⟨_, _, _, h⟩ := evict_frame s; rw [h]
@[simp] theorem evict_station : (evict s).station = s.station := by
  obtain ⟨_, _, _, h⟩ := evict_frame s; rw [h]
@[simp] theorem evict_flags : (evict s).flags = s.flags := by
  obtain ⟨_, _, _, h⟩ := evict_frame s; rw [h]
@[simp] theorem evict_line : (evict s).line = s.line := by
  obtain ⟨_, _, _, h⟩ := evict_frame s; rw [h]
@[simp] theorem evict_assembler : (evict s).assembler = s.assembler := by
  obtain ⟨_, _, _, h⟩ := evict_frame s; rw [h]
@[simp] theorem evict_decoder : (evict s).decoder = s.decoder := by
  obtain ⟨_, _, _, h⟩ := evict_frame s; rw [h]
@[simp] theorem evict_history : (evict s).history = s.history := by
  obtain ⟨_, _, _, h⟩ := evict_frame s; rw [h]
@[simp] theorem evict_slots : (evict s).slots = s.slots := by
  obtain ⟨_, _, _, h⟩ := evict_frame s; rw [h]
@[simp] theorem evict_inbox : (evict s).inbox = s.inbox := by
  obtain ⟨_, _, _, h⟩ := evict_frame s; rw [h]
@[simp] theorem evict_relays : (evict s).relays = s.relays := by
  obtain ⟨_, _, _, h⟩ := evict_frame s; rw [h]
@[simp] theorem evict_outbox : (evict s).outbox = s.outbox := by
  obtain ⟨_, _, _, h⟩ := evict_frame s; rw [h]
@[simp] theorem evict_reports : (evict s).reports = s.reports := by
  obtain ⟨_, _, _, h⟩ := evict_frame s; rw [h]
@[simp] theorem evict_transmit : (evict s).transmit = s.transmit := by
  obtain ⟨_, _, _, h⟩ := evict_frame s; rw [h]
@[simp] theorem evict_port : (evict s).port = s.port := by
  obtain ⟨_, _, _, h⟩ := evict_frame s; rw [h]

/-- What `gate` can change. -/
theorem gate_frame (i : Nat) :
    ∃ x0 x1, gate i s = { s with table := x0, decodeQueue := x1 } := by
  unfold gate
  repeat' (first | split | dsimp only)
  all_goals
    (repeat' apply Exists.intro)
    apply State.ext <;> first | with_reducible rfl | simp
@[simp] theorem gate_pending (i : Nat) : (gate i s).pending = s.pending := by
  obtain ⟨_, _, h⟩ := gate_frame s i; rw [h]
@[simp] theorem gate_pins (i : Nat) : (gate i s).pins = s.pins := by
  obtain ⟨_, _, h⟩ := gate_frame s i; rw [h]
@[simp] theorem gate_inputs (i : Nat) : (gate i s).inputs = s.inputs := by
  obtain ⟨_, _, h⟩ := gate_frame s i; rw [h]
@[simp] theorem gate_refclk (i : Nat) : (gate i s).refclk = s.refclk := by
  obtain ⟨_, _, h⟩ := gate_frame s i; rw [h]
@[simp] theorem gate_drawCount (i : Nat) : (gate i s).drawCount = s.drawCount := by
  obtain ⟨_, _, h⟩ := gate_frame s i; rw [h]
@[simp] theorem gate_choiceCount (i : Nat) : (gate i s).choiceCount = s.choiceCount := by
  obtain ⟨_, _, h⟩ := gate_frame s i; rw [h]
@[simp] theorem gate_orderCount (i : Nat) : (gate i s).orderCount = s.orderCount := by
  obtain ⟨_, _, h⟩ := gate_frame s i; rw [h]
@[simp] theorem gate_station (i : Nat) : (gate i s).station = s.station := by
  obtain ⟨_, _, h⟩ := gate_frame s i; rw [h]
@[simp] theorem gate_counters (i : Nat) : (gate i s).counters = s.counters := by
  obtain ⟨_, _, h⟩ := gate_frame s i; rw [h]
@[simp] theorem gate_flags (i : Nat) : (gate i s).flags = s.flags := by
  obtain ⟨_, _, h⟩ := gate_frame s i; rw [h]
@[simp] theorem gate_line (i : Nat) : (gate i s).line = s.line := by
  obtain ⟨_, _, h⟩ := gate_frame s i; rw [h]
@[simp] theorem gate_assembler (i : Nat) : (gate i s).assembler = s.assembler := by
  obtain ⟨_, _, h⟩ := gate_frame s i; rw [h]
@[simp] theorem gate_decoder (i : Nat) : (gate i s).decoder = s.decoder := by
  obtain ⟨_, _, h⟩ := gate_frame s i; rw [h]
@[simp] theorem gate_history (i : Nat) : (gate i s).history = s.history := by
  obtain ⟨_, _, h⟩ := gate_frame s i; rw [h]
@[simp] theorem gate_slots (i : Nat) : (gate i s).slots = s.slots := by
  obtain ⟨_, _, h⟩ := gate_frame s i; rw [h]
@[simp] theorem gate_inbox (i : Nat) : (gate i s).inbox = s.inbox := by
  obtain ⟨_, _, h⟩ := gate_frame s i; rw [h]
@[simp] theorem gate_relays (i : Nat) : (gate i s).relays = s.relays := by
  obtain ⟨_, _, h⟩ := gate_frame s i; rw [h]
@[simp] theorem gate_outbox (i : Nat) : (gate i s).outbox = s.outbox := by
  obtain ⟨_, _, h⟩ := gate_frame s i; rw [h]
@[simp] theorem gate_reports (i : Nat) : (gate i s).reports = s.reports := by
  obtain ⟨_, _, h⟩ := gate_frame s i; rw [h]
@[simp] theorem gate_transmit (i : Nat) : (gate i s).transmit = s.transmit := by
  obtain ⟨_, _, h⟩ := gate_frame s i; rw [h]
@[simp] theorem gate_port (i : Nat) : (gate i s).port = s.port := by
  obtain ⟨_, _, h⟩ := gate_frame s i; rw [h]

/-- What `openEntry` can change. -/
theorem openEntry_frame (r : CopyRecord) :
    ∃ x0 x1 x2, openEntry r s = { s with counters := x0, table := x1, decodeQueue := x2 } := by
  unfold openEntry
  repeat' (first | split | dsimp only)
  all_goals
    (repeat' apply Exists.intro)
    apply State.ext <;> first | with_reducible rfl | simp
@[simp] theorem openEntry_pending (r : CopyRecord) : (openEntry r s).pending = s.pending := by
  obtain ⟨_, _, _, h⟩ := openEntry_frame s r; rw [h]
@[simp] theorem openEntry_pins (r : CopyRecord) : (openEntry r s).pins = s.pins := by
  obtain ⟨_, _, _, h⟩ := openEntry_frame s r; rw [h]
@[simp] theorem openEntry_inputs (r : CopyRecord) : (openEntry r s).inputs = s.inputs := by
  obtain ⟨_, _, _, h⟩ := openEntry_frame s r; rw [h]
@[simp] theorem openEntry_refclk (r : CopyRecord) : (openEntry r s).refclk = s.refclk := by
  obtain ⟨_, _, _, h⟩ := openEntry_frame s r; rw [h]
@[simp] theorem openEntry_drawCount (r : CopyRecord) : (openEntry r s).drawCount = s.drawCount := by
  obtain ⟨_, _, _, h⟩ := openEntry_frame s r; rw [h]
@[simp] theorem openEntry_choiceCount (r : CopyRecord) : (openEntry r s).choiceCount = s.choiceCount := by
  obtain ⟨_, _, _, h⟩ := openEntry_frame s r; rw [h]
@[simp] theorem openEntry_orderCount (r : CopyRecord) : (openEntry r s).orderCount = s.orderCount := by
  obtain ⟨_, _, _, h⟩ := openEntry_frame s r; rw [h]
@[simp] theorem openEntry_station (r : CopyRecord) : (openEntry r s).station = s.station := by
  obtain ⟨_, _, _, h⟩ := openEntry_frame s r; rw [h]
@[simp] theorem openEntry_flags (r : CopyRecord) : (openEntry r s).flags = s.flags := by
  obtain ⟨_, _, _, h⟩ := openEntry_frame s r; rw [h]
@[simp] theorem openEntry_line (r : CopyRecord) : (openEntry r s).line = s.line := by
  obtain ⟨_, _, _, h⟩ := openEntry_frame s r; rw [h]
@[simp] theorem openEntry_assembler (r : CopyRecord) : (openEntry r s).assembler = s.assembler := by
  obtain ⟨_, _, _, h⟩ := openEntry_frame s r; rw [h]
@[simp] theorem openEntry_decoder (r : CopyRecord) : (openEntry r s).decoder = s.decoder := by
  obtain ⟨_, _, _, h⟩ := openEntry_frame s r; rw [h]
@[simp] theorem openEntry_history (r : CopyRecord) : (openEntry r s).history = s.history := by
  obtain ⟨_, _, _, h⟩ := openEntry_frame s r; rw [h]
@[simp] theorem openEntry_slots (r : CopyRecord) : (openEntry r s).slots = s.slots := by
  obtain ⟨_, _, _, h⟩ := openEntry_frame s r; rw [h]
@[simp] theorem openEntry_inbox (r : CopyRecord) : (openEntry r s).inbox = s.inbox := by
  obtain ⟨_, _, _, h⟩ := openEntry_frame s r; rw [h]
@[simp] theorem openEntry_relays (r : CopyRecord) : (openEntry r s).relays = s.relays := by
  obtain ⟨_, _, _, h⟩ := openEntry_frame s r; rw [h]
@[simp] theorem openEntry_outbox (r : CopyRecord) : (openEntry r s).outbox = s.outbox := by
  obtain ⟨_, _, _, h⟩ := openEntry_frame s r; rw [h]
@[simp] theorem openEntry_reports (r : CopyRecord) : (openEntry r s).reports = s.reports := by
  obtain ⟨_, _, _, h⟩ := openEntry_frame s r; rw [h]
@[simp] theorem openEntry_transmit (r : CopyRecord) : (openEntry r s).transmit = s.transmit := by
  obtain ⟨_, _, _, h⟩ := openEntry_frame s r; rw [h]
@[simp] theorem openEntry_port (r : CopyRecord) : (openEntry r s).port = s.port := by
  obtain ⟨_, _, _, h⟩ := openEntry_frame s r; rw [h]

/-- What `matchCopy` can change. -/
theorem matchCopy_frame (i : Nat) (r : CopyRecord) :
    ∃ x0 x1, matchCopy i r s = { s with table := x0, decodeQueue := x1 } := by
  unfold matchCopy
  repeat' (first | split | dsimp only)
  all_goals
    (repeat' apply Exists.intro)
    apply State.ext <;> first | with_reducible rfl | simp
@[simp] theorem matchCopy_pending (i : Nat) (r : CopyRecord) : (matchCopy i r s).pending = s.pending := by
  obtain ⟨_, _, h⟩ := matchCopy_frame s i r; rw [h]
@[simp] theorem matchCopy_pins (i : Nat) (r : CopyRecord) : (matchCopy i r s).pins = s.pins := by
  obtain ⟨_, _, h⟩ := matchCopy_frame s i r; rw [h]
@[simp] theorem matchCopy_inputs (i : Nat) (r : CopyRecord) : (matchCopy i r s).inputs = s.inputs := by
  obtain ⟨_, _, h⟩ := matchCopy_frame s i r; rw [h]
@[simp] theorem matchCopy_refclk (i : Nat) (r : CopyRecord) : (matchCopy i r s).refclk = s.refclk := by
  obtain ⟨_, _, h⟩ := matchCopy_frame s i r; rw [h]
@[simp] theorem matchCopy_drawCount (i : Nat) (r : CopyRecord) : (matchCopy i r s).drawCount = s.drawCount := by
  obtain ⟨_, _, h⟩ := matchCopy_frame s i r; rw [h]
@[simp] theorem matchCopy_choiceCount (i : Nat) (r : CopyRecord) : (matchCopy i r s).choiceCount = s.choiceCount := by
  obtain ⟨_, _, h⟩ := matchCopy_frame s i r; rw [h]
@[simp] theorem matchCopy_orderCount (i : Nat) (r : CopyRecord) : (matchCopy i r s).orderCount = s.orderCount := by
  obtain ⟨_, _, h⟩ := matchCopy_frame s i r; rw [h]
@[simp] theorem matchCopy_station (i : Nat) (r : CopyRecord) : (matchCopy i r s).station = s.station := by
  obtain ⟨_, _, h⟩ := matchCopy_frame s i r; rw [h]
@[simp] theorem matchCopy_counters (i : Nat) (r : CopyRecord) : (matchCopy i r s).counters = s.counters := by
  obtain ⟨_, _, h⟩ := matchCopy_frame s i r; rw [h]
@[simp] theorem matchCopy_flags (i : Nat) (r : CopyRecord) : (matchCopy i r s).flags = s.flags := by
  obtain ⟨_, _, h⟩ := matchCopy_frame s i r; rw [h]
@[simp] theorem matchCopy_line (i : Nat) (r : CopyRecord) : (matchCopy i r s).line = s.line := by
  obtain ⟨_, _, h⟩ := matchCopy_frame s i r; rw [h]
@[simp] theorem matchCopy_assembler (i : Nat) (r : CopyRecord) : (matchCopy i r s).assembler = s.assembler := by
  obtain ⟨_, _, h⟩ := matchCopy_frame s i r; rw [h]
@[simp] theorem matchCopy_decoder (i : Nat) (r : CopyRecord) : (matchCopy i r s).decoder = s.decoder := by
  obtain ⟨_, _, h⟩ := matchCopy_frame s i r; rw [h]
@[simp] theorem matchCopy_history (i : Nat) (r : CopyRecord) : (matchCopy i r s).history = s.history := by
  obtain ⟨_, _, h⟩ := matchCopy_frame s i r; rw [h]
@[simp] theorem matchCopy_slots (i : Nat) (r : CopyRecord) : (matchCopy i r s).slots = s.slots := by
  obtain ⟨_, _, h⟩ := matchCopy_frame s i r; rw [h]
@[simp] theorem matchCopy_inbox (i : Nat) (r : CopyRecord) : (matchCopy i r s).inbox = s.inbox := by
  obtain ⟨_, _, h⟩ := matchCopy_frame s i r; rw [h]
@[simp] theorem matchCopy_relays (i : Nat) (r : CopyRecord) : (matchCopy i r s).relays = s.relays := by
  obtain ⟨_, _, h⟩ := matchCopy_frame s i r; rw [h]
@[simp] theorem matchCopy_outbox (i : Nat) (r : CopyRecord) : (matchCopy i r s).outbox = s.outbox := by
  obtain ⟨_, _, h⟩ := matchCopy_frame s i r; rw [h]
@[simp] theorem matchCopy_reports (i : Nat) (r : CopyRecord) : (matchCopy i r s).reports = s.reports := by
  obtain ⟨_, _, h⟩ := matchCopy_frame s i r; rw [h]
@[simp] theorem matchCopy_transmit (i : Nat) (r : CopyRecord) : (matchCopy i r s).transmit = s.transmit := by
  obtain ⟨_, _, h⟩ := matchCopy_frame s i r; rw [h]
@[simp] theorem matchCopy_port (i : Nat) (r : CopyRecord) : (matchCopy i r s).port = s.port := by
  obtain ⟨_, _, h⟩ := matchCopy_frame s i r; rw [h]

/-- What `expireEntry` can change. -/
theorem expireEntry_frame (i : Nat) :
    ∃ x0 x1, expireEntry i s = { s with counters := x0, table := x1 } := by
  unfold expireEntry
  repeat' (first | split | dsimp only)
  all_goals
    (repeat' apply Exists.intro)
    apply State.ext <;> first | with_reducible rfl | simp
@[simp] theorem expireEntry_pending (i : Nat) : (expireEntry i s).pending = s.pending := by
  obtain ⟨_, _, h⟩ := expireEntry_frame s i; rw [h]
@[simp] theorem expireEntry_pins (i : Nat) : (expireEntry i s).pins = s.pins := by
  obtain ⟨_, _, h⟩ := expireEntry_frame s i; rw [h]
@[simp] theorem expireEntry_inputs (i : Nat) : (expireEntry i s).inputs = s.inputs := by
  obtain ⟨_, _, h⟩ := expireEntry_frame s i; rw [h]
@[simp] theorem expireEntry_refclk (i : Nat) : (expireEntry i s).refclk = s.refclk := by
  obtain ⟨_, _, h⟩ := expireEntry_frame s i; rw [h]
@[simp] theorem expireEntry_drawCount (i : Nat) : (expireEntry i s).drawCount = s.drawCount := by
  obtain ⟨_, _, h⟩ := expireEntry_frame s i; rw [h]
@[simp] theorem expireEntry_choiceCount (i : Nat) : (expireEntry i s).choiceCount = s.choiceCount := by
  obtain ⟨_, _, h⟩ := expireEntry_frame s i; rw [h]
@[simp] theorem expireEntry_orderCount (i : Nat) : (expireEntry i s).orderCount = s.orderCount := by
  obtain ⟨_, _, h⟩ := expireEntry_frame s i; rw [h]
@[simp] theorem expireEntry_station (i : Nat) : (expireEntry i s).station = s.station := by
  obtain ⟨_, _, h⟩ := expireEntry_frame s i; rw [h]
@[simp] theorem expireEntry_flags (i : Nat) : (expireEntry i s).flags = s.flags := by
  obtain ⟨_, _, h⟩ := expireEntry_frame s i; rw [h]
@[simp] theorem expireEntry_line (i : Nat) : (expireEntry i s).line = s.line := by
  obtain ⟨_, _, h⟩ := expireEntry_frame s i; rw [h]
@[simp] theorem expireEntry_assembler (i : Nat) : (expireEntry i s).assembler = s.assembler := by
  obtain ⟨_, _, h⟩ := expireEntry_frame s i; rw [h]
@[simp] theorem expireEntry_decodeQueue (i : Nat) : (expireEntry i s).decodeQueue = s.decodeQueue := by
  obtain ⟨_, _, h⟩ := expireEntry_frame s i; rw [h]
@[simp] theorem expireEntry_decoder (i : Nat) : (expireEntry i s).decoder = s.decoder := by
  obtain ⟨_, _, h⟩ := expireEntry_frame s i; rw [h]
@[simp] theorem expireEntry_history (i : Nat) : (expireEntry i s).history = s.history := by
  obtain ⟨_, _, h⟩ := expireEntry_frame s i; rw [h]
@[simp] theorem expireEntry_slots (i : Nat) : (expireEntry i s).slots = s.slots := by
  obtain ⟨_, _, h⟩ := expireEntry_frame s i; rw [h]
@[simp] theorem expireEntry_inbox (i : Nat) : (expireEntry i s).inbox = s.inbox := by
  obtain ⟨_, _, h⟩ := expireEntry_frame s i; rw [h]
@[simp] theorem expireEntry_relays (i : Nat) : (expireEntry i s).relays = s.relays := by
  obtain ⟨_, _, h⟩ := expireEntry_frame s i; rw [h]
@[simp] theorem expireEntry_outbox (i : Nat) : (expireEntry i s).outbox = s.outbox := by
  obtain ⟨_, _, h⟩ := expireEntry_frame s i; rw [h]
@[simp] theorem expireEntry_reports (i : Nat) : (expireEntry i s).reports = s.reports := by
  obtain ⟨_, _, h⟩ := expireEntry_frame s i; rw [h]
@[simp] theorem expireEntry_transmit (i : Nat) : (expireEntry i s).transmit = s.transmit := by
  obtain ⟨_, _, h⟩ := expireEntry_frame s i; rw [h]
@[simp] theorem expireEntry_port (i : Nat) : (expireEntry i s).port = s.port := by
  obtain ⟨_, _, h⟩ := expireEntry_frame s i; rw [h]

/-- What `settleFailure` can change. -/
theorem settleFailure_frame (i : Nat) :
    ∃ x0 x1 x2, settleFailure i s = { s with counters := x0, table := x1, decodeQueue := x2 } := by
  unfold settleFailure
  repeat' (first | split | dsimp only)
  all_goals
    (repeat' apply Exists.intro)
    apply State.ext <;> first | with_reducible rfl | simp
@[simp] theorem settleFailure_pending (i : Nat) : (settleFailure i s).pending = s.pending := by
  obtain ⟨_, _, _, h⟩ := settleFailure_frame s i; rw [h]
@[simp] theorem settleFailure_pins (i : Nat) : (settleFailure i s).pins = s.pins := by
  obtain ⟨_, _, _, h⟩ := settleFailure_frame s i; rw [h]
@[simp] theorem settleFailure_inputs (i : Nat) : (settleFailure i s).inputs = s.inputs := by
  obtain ⟨_, _, _, h⟩ := settleFailure_frame s i; rw [h]
@[simp] theorem settleFailure_refclk (i : Nat) : (settleFailure i s).refclk = s.refclk := by
  obtain ⟨_, _, _, h⟩ := settleFailure_frame s i; rw [h]
@[simp] theorem settleFailure_drawCount (i : Nat) : (settleFailure i s).drawCount = s.drawCount := by
  obtain ⟨_, _, _, h⟩ := settleFailure_frame s i; rw [h]
@[simp] theorem settleFailure_choiceCount (i : Nat) : (settleFailure i s).choiceCount = s.choiceCount := by
  obtain ⟨_, _, _, h⟩ := settleFailure_frame s i; rw [h]
@[simp] theorem settleFailure_orderCount (i : Nat) : (settleFailure i s).orderCount = s.orderCount := by
  obtain ⟨_, _, _, h⟩ := settleFailure_frame s i; rw [h]
@[simp] theorem settleFailure_station (i : Nat) : (settleFailure i s).station = s.station := by
  obtain ⟨_, _, _, h⟩ := settleFailure_frame s i; rw [h]
@[simp] theorem settleFailure_flags (i : Nat) : (settleFailure i s).flags = s.flags := by
  obtain ⟨_, _, _, h⟩ := settleFailure_frame s i; rw [h]
@[simp] theorem settleFailure_line (i : Nat) : (settleFailure i s).line = s.line := by
  obtain ⟨_, _, _, h⟩ := settleFailure_frame s i; rw [h]
@[simp] theorem settleFailure_assembler (i : Nat) : (settleFailure i s).assembler = s.assembler := by
  obtain ⟨_, _, _, h⟩ := settleFailure_frame s i; rw [h]
@[simp] theorem settleFailure_decoder (i : Nat) : (settleFailure i s).decoder = s.decoder := by
  obtain ⟨_, _, _, h⟩ := settleFailure_frame s i; rw [h]
@[simp] theorem settleFailure_history (i : Nat) : (settleFailure i s).history = s.history := by
  obtain ⟨_, _, _, h⟩ := settleFailure_frame s i; rw [h]
@[simp] theorem settleFailure_slots (i : Nat) : (settleFailure i s).slots = s.slots := by
  obtain ⟨_, _, _, h⟩ := settleFailure_frame s i; rw [h]
@[simp] theorem settleFailure_inbox (i : Nat) : (settleFailure i s).inbox = s.inbox := by
  obtain ⟨_, _, _, h⟩ := settleFailure_frame s i; rw [h]
@[simp] theorem settleFailure_relays (i : Nat) : (settleFailure i s).relays = s.relays := by
  obtain ⟨_, _, _, h⟩ := settleFailure_frame s i; rw [h]
@[simp] theorem settleFailure_outbox (i : Nat) : (settleFailure i s).outbox = s.outbox := by
  obtain ⟨_, _, _, h⟩ := settleFailure_frame s i; rw [h]
@[simp] theorem settleFailure_reports (i : Nat) : (settleFailure i s).reports = s.reports := by
  obtain ⟨_, _, _, h⟩ := settleFailure_frame s i; rw [h]
@[simp] theorem settleFailure_transmit (i : Nat) : (settleFailure i s).transmit = s.transmit := by
  obtain ⟨_, _, _, h⟩ := settleFailure_frame s i; rw [h]
@[simp] theorem settleFailure_port (i : Nat) : (settleFailure i s).port = s.port := by
  obtain ⟨_, _, _, h⟩ := settleFailure_frame s i; rw [h]

/-- What `dropRelay` can change. -/
theorem dropRelay_frame (i : Nat) (item : RelayItem) :
    ∃ x0 x1, dropRelay i item s = { s with slots := x0, relays := x1 } := by
  unfold dropRelay
  repeat' (first | split | dsimp only)
  all_goals
    (repeat' apply Exists.intro)
    apply State.ext <;> first | with_reducible rfl | simp
@[simp] theorem dropRelay_pending (i : Nat) (item : RelayItem) : (dropRelay i item s).pending = s.pending := by
  obtain ⟨_, _, h⟩ := dropRelay_frame s i item; rw [h]
@[simp] theorem dropRelay_pins (i : Nat) (item : RelayItem) : (dropRelay i item s).pins = s.pins := by
  obtain ⟨_, _, h⟩ := dropRelay_frame s i item; rw [h]
@[simp] theorem dropRelay_inputs (i : Nat) (item : RelayItem) : (dropRelay i item s).inputs = s.inputs := by
  obtain ⟨_, _, h⟩ := dropRelay_frame s i item; rw [h]
@[simp] theorem dropRelay_refclk (i : Nat) (item : RelayItem) : (dropRelay i item s).refclk = s.refclk := by
  obtain ⟨_, _, h⟩ := dropRelay_frame s i item; rw [h]
@[simp] theorem dropRelay_drawCount (i : Nat) (item : RelayItem) : (dropRelay i item s).drawCount = s.drawCount := by
  obtain ⟨_, _, h⟩ := dropRelay_frame s i item; rw [h]
@[simp] theorem dropRelay_choiceCount (i : Nat) (item : RelayItem) : (dropRelay i item s).choiceCount = s.choiceCount := by
  obtain ⟨_, _, h⟩ := dropRelay_frame s i item; rw [h]
@[simp] theorem dropRelay_orderCount (i : Nat) (item : RelayItem) : (dropRelay i item s).orderCount = s.orderCount := by
  obtain ⟨_, _, h⟩ := dropRelay_frame s i item; rw [h]
@[simp] theorem dropRelay_station (i : Nat) (item : RelayItem) : (dropRelay i item s).station = s.station := by
  obtain ⟨_, _, h⟩ := dropRelay_frame s i item; rw [h]
@[simp] theorem dropRelay_counters (i : Nat) (item : RelayItem) : (dropRelay i item s).counters = s.counters := by
  obtain ⟨_, _, h⟩ := dropRelay_frame s i item; rw [h]
@[simp] theorem dropRelay_flags (i : Nat) (item : RelayItem) : (dropRelay i item s).flags = s.flags := by
  obtain ⟨_, _, h⟩ := dropRelay_frame s i item; rw [h]
@[simp] theorem dropRelay_line (i : Nat) (item : RelayItem) : (dropRelay i item s).line = s.line := by
  obtain ⟨_, _, h⟩ := dropRelay_frame s i item; rw [h]
@[simp] theorem dropRelay_assembler (i : Nat) (item : RelayItem) : (dropRelay i item s).assembler = s.assembler := by
  obtain ⟨_, _, h⟩ := dropRelay_frame s i item; rw [h]
@[simp] theorem dropRelay_table (i : Nat) (item : RelayItem) : (dropRelay i item s).table = s.table := by
  obtain ⟨_, _, h⟩ := dropRelay_frame s i item; rw [h]
@[simp] theorem dropRelay_decodeQueue (i : Nat) (item : RelayItem) : (dropRelay i item s).decodeQueue = s.decodeQueue := by
  obtain ⟨_, _, h⟩ := dropRelay_frame s i item; rw [h]
@[simp] theorem dropRelay_decoder (i : Nat) (item : RelayItem) : (dropRelay i item s).decoder = s.decoder := by
  obtain ⟨_, _, h⟩ := dropRelay_frame s i item; rw [h]
@[simp] theorem dropRelay_history (i : Nat) (item : RelayItem) : (dropRelay i item s).history = s.history := by
  obtain ⟨_, _, h⟩ := dropRelay_frame s i item; rw [h]
@[simp] theorem dropRelay_inbox (i : Nat) (item : RelayItem) : (dropRelay i item s).inbox = s.inbox := by
  obtain ⟨_, _, h⟩ := dropRelay_frame s i item; rw [h]
@[simp] theorem dropRelay_outbox (i : Nat) (item : RelayItem) : (dropRelay i item s).outbox = s.outbox := by
  obtain ⟨_, _, h⟩ := dropRelay_frame s i item; rw [h]
@[simp] theorem dropRelay_reports (i : Nat) (item : RelayItem) : (dropRelay i item s).reports = s.reports := by
  obtain ⟨_, _, h⟩ := dropRelay_frame s i item; rw [h]
@[simp] theorem dropRelay_transmit (i : Nat) (item : RelayItem) : (dropRelay i item s).transmit = s.transmit := by
  obtain ⟨_, _, h⟩ := dropRelay_frame s i item; rw [h]
@[simp] theorem dropRelay_port (i : Nat) (item : RelayItem) : (dropRelay i item s).port = s.port := by
  obtain ⟨_, _, h⟩ := dropRelay_frame s i item; rw [h]

/-- What `suppressRelay` can change. -/
theorem suppressRelay_frame (i : Nat) (item : RelayItem) :
    ∃ x0 x1 x2, suppressRelay i item s = { s with counters := x0, slots := x1, relays := x2 } := by
  unfold suppressRelay
  repeat' (first | split | dsimp only)
  all_goals
    (repeat' apply Exists.intro)
    apply State.ext <;> first | with_reducible rfl | simp
@[simp] theorem suppressRelay_pending (i : Nat) (item : RelayItem) : (suppressRelay i item s).pending = s.pending := by
  obtain ⟨_, _, _, h⟩ := suppressRelay_frame s i item; rw [h]
@[simp] theorem suppressRelay_pins (i : Nat) (item : RelayItem) : (suppressRelay i item s).pins = s.pins := by
  obtain ⟨_, _, _, h⟩ := suppressRelay_frame s i item; rw [h]
@[simp] theorem suppressRelay_inputs (i : Nat) (item : RelayItem) : (suppressRelay i item s).inputs = s.inputs := by
  obtain ⟨_, _, _, h⟩ := suppressRelay_frame s i item; rw [h]
@[simp] theorem suppressRelay_refclk (i : Nat) (item : RelayItem) : (suppressRelay i item s).refclk = s.refclk := by
  obtain ⟨_, _, _, h⟩ := suppressRelay_frame s i item; rw [h]
@[simp] theorem suppressRelay_drawCount (i : Nat) (item : RelayItem) : (suppressRelay i item s).drawCount = s.drawCount := by
  obtain ⟨_, _, _, h⟩ := suppressRelay_frame s i item; rw [h]
@[simp] theorem suppressRelay_choiceCount (i : Nat) (item : RelayItem) : (suppressRelay i item s).choiceCount = s.choiceCount := by
  obtain ⟨_, _, _, h⟩ := suppressRelay_frame s i item; rw [h]
@[simp] theorem suppressRelay_orderCount (i : Nat) (item : RelayItem) : (suppressRelay i item s).orderCount = s.orderCount := by
  obtain ⟨_, _, _, h⟩ := suppressRelay_frame s i item; rw [h]
@[simp] theorem suppressRelay_station (i : Nat) (item : RelayItem) : (suppressRelay i item s).station = s.station := by
  obtain ⟨_, _, _, h⟩ := suppressRelay_frame s i item; rw [h]
@[simp] theorem suppressRelay_flags (i : Nat) (item : RelayItem) : (suppressRelay i item s).flags = s.flags := by
  obtain ⟨_, _, _, h⟩ := suppressRelay_frame s i item; rw [h]
@[simp] theorem suppressRelay_line (i : Nat) (item : RelayItem) : (suppressRelay i item s).line = s.line := by
  obtain ⟨_, _, _, h⟩ := suppressRelay_frame s i item; rw [h]
@[simp] theorem suppressRelay_assembler (i : Nat) (item : RelayItem) : (suppressRelay i item s).assembler = s.assembler := by
  obtain ⟨_, _, _, h⟩ := suppressRelay_frame s i item; rw [h]
@[simp] theorem suppressRelay_table (i : Nat) (item : RelayItem) : (suppressRelay i item s).table = s.table := by
  obtain ⟨_, _, _, h⟩ := suppressRelay_frame s i item; rw [h]
@[simp] theorem suppressRelay_decodeQueue (i : Nat) (item : RelayItem) : (suppressRelay i item s).decodeQueue = s.decodeQueue := by
  obtain ⟨_, _, _, h⟩ := suppressRelay_frame s i item; rw [h]
@[simp] theorem suppressRelay_decoder (i : Nat) (item : RelayItem) : (suppressRelay i item s).decoder = s.decoder := by
  obtain ⟨_, _, _, h⟩ := suppressRelay_frame s i item; rw [h]
@[simp] theorem suppressRelay_history (i : Nat) (item : RelayItem) : (suppressRelay i item s).history = s.history := by
  obtain ⟨_, _, _, h⟩ := suppressRelay_frame s i item; rw [h]
@[simp] theorem suppressRelay_inbox (i : Nat) (item : RelayItem) : (suppressRelay i item s).inbox = s.inbox := by
  obtain ⟨_, _, _, h⟩ := suppressRelay_frame s i item; rw [h]
@[simp] theorem suppressRelay_outbox (i : Nat) (item : RelayItem) : (suppressRelay i item s).outbox = s.outbox := by
  obtain ⟨_, _, _, h⟩ := suppressRelay_frame s i item; rw [h]
@[simp] theorem suppressRelay_reports (i : Nat) (item : RelayItem) : (suppressRelay i item s).reports = s.reports := by
  obtain ⟨_, _, _, h⟩ := suppressRelay_frame s i item; rw [h]
@[simp] theorem suppressRelay_transmit (i : Nat) (item : RelayItem) : (suppressRelay i item s).transmit = s.transmit := by
  obtain ⟨_, _, _, h⟩ := suppressRelay_frame s i item; rw [h]
@[simp] theorem suppressRelay_port (i : Nat) (item : RelayItem) : (suppressRelay i item s).port = s.port := by
  obtain ⟨_, _, _, h⟩ := suppressRelay_frame s i item; rw [h]

/-- What `requestRelay` can change. -/
theorem requestRelay_frame (e : Entry) (slot : Nat) :
    ∃ x0 x1 x2 x3 x4, requestRelay e slot s = { s with drawCount := x0, counters := x1, flags := x2, slots := x3, relays := x4 } := by
  unfold requestRelay
  repeat' (first | split | dsimp only)
  all_goals
    (repeat' apply Exists.intro)
    apply State.ext <;> first | with_reducible rfl | simp
@[simp] theorem requestRelay_pending (e : Entry) (slot : Nat) : (requestRelay e slot s).pending = s.pending := by
  obtain ⟨_, _, _, _, _, h⟩ := requestRelay_frame s e slot; rw [h]
@[simp] theorem requestRelay_pins (e : Entry) (slot : Nat) : (requestRelay e slot s).pins = s.pins := by
  obtain ⟨_, _, _, _, _, h⟩ := requestRelay_frame s e slot; rw [h]
@[simp] theorem requestRelay_inputs (e : Entry) (slot : Nat) : (requestRelay e slot s).inputs = s.inputs := by
  obtain ⟨_, _, _, _, _, h⟩ := requestRelay_frame s e slot; rw [h]
@[simp] theorem requestRelay_refclk (e : Entry) (slot : Nat) : (requestRelay e slot s).refclk = s.refclk := by
  obtain ⟨_, _, _, _, _, h⟩ := requestRelay_frame s e slot; rw [h]
@[simp] theorem requestRelay_choiceCount (e : Entry) (slot : Nat) : (requestRelay e slot s).choiceCount = s.choiceCount := by
  obtain ⟨_, _, _, _, _, h⟩ := requestRelay_frame s e slot; rw [h]
@[simp] theorem requestRelay_orderCount (e : Entry) (slot : Nat) : (requestRelay e slot s).orderCount = s.orderCount := by
  obtain ⟨_, _, _, _, _, h⟩ := requestRelay_frame s e slot; rw [h]
@[simp] theorem requestRelay_station (e : Entry) (slot : Nat) : (requestRelay e slot s).station = s.station := by
  obtain ⟨_, _, _, _, _, h⟩ := requestRelay_frame s e slot; rw [h]
@[simp] theorem requestRelay_line (e : Entry) (slot : Nat) : (requestRelay e slot s).line = s.line := by
  obtain ⟨_, _, _, _, _, h⟩ := requestRelay_frame s e slot; rw [h]
@[simp] theorem requestRelay_assembler (e : Entry) (slot : Nat) : (requestRelay e slot s).assembler = s.assembler := by
  obtain ⟨_, _, _, _, _, h⟩ := requestRelay_frame s e slot; rw [h]
@[simp] theorem requestRelay_table (e : Entry) (slot : Nat) : (requestRelay e slot s).table = s.table := by
  obtain ⟨_, _, _, _, _, h⟩ := requestRelay_frame s e slot; rw [h]
@[simp] theorem requestRelay_decodeQueue (e : Entry) (slot : Nat) : (requestRelay e slot s).decodeQueue = s.decodeQueue := by
  obtain ⟨_, _, _, _, _, h⟩ := requestRelay_frame s e slot; rw [h]
@[simp] theorem requestRelay_decoder (e : Entry) (slot : Nat) : (requestRelay e slot s).decoder = s.decoder := by
  obtain ⟨_, _, _, _, _, h⟩ := requestRelay_frame s e slot; rw [h]
@[simp] theorem requestRelay_history (e : Entry) (slot : Nat) : (requestRelay e slot s).history = s.history := by
  obtain ⟨_, _, _, _, _, h⟩ := requestRelay_frame s e slot; rw [h]
@[simp] theorem requestRelay_inbox (e : Entry) (slot : Nat) : (requestRelay e slot s).inbox = s.inbox := by
  obtain ⟨_, _, _, _, _, h⟩ := requestRelay_frame s e slot; rw [h]
@[simp] theorem requestRelay_outbox (e : Entry) (slot : Nat) : (requestRelay e slot s).outbox = s.outbox := by
  obtain ⟨_, _, _, _, _, h⟩ := requestRelay_frame s e slot; rw [h]
@[simp] theorem requestRelay_reports (e : Entry) (slot : Nat) : (requestRelay e slot s).reports = s.reports := by
  obtain ⟨_, _, _, _, _, h⟩ := requestRelay_frame s e slot; rw [h]
@[simp] theorem requestRelay_transmit (e : Entry) (slot : Nat) : (requestRelay e slot s).transmit = s.transmit := by
  obtain ⟨_, _, _, _, _, h⟩ := requestRelay_frame s e slot; rw [h]
@[simp] theorem requestRelay_port (e : Entry) (slot : Nat) : (requestRelay e slot s).port = s.port := by
  obtain ⟨_, _, _, _, _, h⟩ := requestRelay_frame s e slot; rw [h]

/-- What `offerInbox` can change. -/
theorem offerInbox_frame (m : Message) :
    ∃ x0 x1 x2 x3, offerInbox m s = { s with counters := x0, flags := x1, slots := x2, inbox := x3 } := by
  unfold offerInbox
  repeat' (first | split | dsimp only)
  all_goals
    (repeat' apply Exists.intro)
    apply State.ext <;> first | with_reducible rfl | simp
@[simp] theorem offerInbox_pending (m : Message) : (offerInbox m s).pending = s.pending := by
  obtain ⟨_, _, _, _, h⟩ := offerInbox_frame s m; rw [h]
@[simp] theorem offerInbox_pins (m : Message) : (offerInbox m s).pins = s.pins := by
  obtain ⟨_, _, _, _, h⟩ := offerInbox_frame s m; rw [h]
@[simp] theorem offerInbox_inputs (m : Message) : (offerInbox m s).inputs = s.inputs := by
  obtain ⟨_, _, _, _, h⟩ := offerInbox_frame s m; rw [h]
@[simp] theorem offerInbox_refclk (m : Message) : (offerInbox m s).refclk = s.refclk := by
  obtain ⟨_, _, _, _, h⟩ := offerInbox_frame s m; rw [h]
@[simp] theorem offerInbox_drawCount (m : Message) : (offerInbox m s).drawCount = s.drawCount := by
  obtain ⟨_, _, _, _, h⟩ := offerInbox_frame s m; rw [h]
@[simp] theorem offerInbox_choiceCount (m : Message) : (offerInbox m s).choiceCount = s.choiceCount := by
  obtain ⟨_, _, _, _, h⟩ := offerInbox_frame s m; rw [h]
@[simp] theorem offerInbox_orderCount (m : Message) : (offerInbox m s).orderCount = s.orderCount := by
  obtain ⟨_, _, _, _, h⟩ := offerInbox_frame s m; rw [h]
@[simp] theorem offerInbox_station (m : Message) : (offerInbox m s).station = s.station := by
  obtain ⟨_, _, _, _, h⟩ := offerInbox_frame s m; rw [h]
@[simp] theorem offerInbox_line (m : Message) : (offerInbox m s).line = s.line := by
  obtain ⟨_, _, _, _, h⟩ := offerInbox_frame s m; rw [h]
@[simp] theorem offerInbox_assembler (m : Message) : (offerInbox m s).assembler = s.assembler := by
  obtain ⟨_, _, _, _, h⟩ := offerInbox_frame s m; rw [h]
@[simp] theorem offerInbox_table (m : Message) : (offerInbox m s).table = s.table := by
  obtain ⟨_, _, _, _, h⟩ := offerInbox_frame s m; rw [h]
@[simp] theorem offerInbox_decodeQueue (m : Message) : (offerInbox m s).decodeQueue = s.decodeQueue := by
  obtain ⟨_, _, _, _, h⟩ := offerInbox_frame s m; rw [h]
@[simp] theorem offerInbox_decoder (m : Message) : (offerInbox m s).decoder = s.decoder := by
  obtain ⟨_, _, _, _, h⟩ := offerInbox_frame s m; rw [h]
@[simp] theorem offerInbox_history (m : Message) : (offerInbox m s).history = s.history := by
  obtain ⟨_, _, _, _, h⟩ := offerInbox_frame s m; rw [h]
@[simp] theorem offerInbox_relays (m : Message) : (offerInbox m s).relays = s.relays := by
  obtain ⟨_, _, _, _, h⟩ := offerInbox_frame s m; rw [h]
@[simp] theorem offerInbox_outbox (m : Message) : (offerInbox m s).outbox = s.outbox := by
  obtain ⟨_, _, _, _, h⟩ := offerInbox_frame s m; rw [h]
@[simp] theorem offerInbox_reports (m : Message) : (offerInbox m s).reports = s.reports := by
  obtain ⟨_, _, _, _, h⟩ := offerInbox_frame s m; rw [h]
@[simp] theorem offerInbox_transmit (m : Message) : (offerInbox m s).transmit = s.transmit := by
  obtain ⟨_, _, _, _, h⟩ := offerInbox_frame s m; rw [h]
@[simp] theorem offerInbox_port (m : Message) : (offerInbox m s).port = s.port := by
  obtain ⟨_, _, _, _, h⟩ := offerInbox_frame s m; rw [h]

/-- What `deliver` can change. -/
theorem deliver_frame (e : Entry) (u slot : Nat) :
    ∃ x0 x1 x2 x3 x4 x5, deliver e u slot s = { s with drawCount := x0, counters := x1, flags := x2, slots := x3, inbox := x4, relays := x5 } := by
  unfold deliver
  repeat' (first | split | dsimp only)
  all_goals
    (repeat' apply Exists.intro)
    apply State.ext <;> first | with_reducible rfl | simp
@[simp] theorem deliver_pending (e : Entry) (u slot : Nat) : (deliver e u slot s).pending = s.pending := by
  obtain ⟨_, _, _, _, _, _, h⟩ := deliver_frame s e u slot; rw [h]
@[simp] theorem deliver_pins (e : Entry) (u slot : Nat) : (deliver e u slot s).pins = s.pins := by
  obtain ⟨_, _, _, _, _, _, h⟩ := deliver_frame s e u slot; rw [h]
@[simp] theorem deliver_inputs (e : Entry) (u slot : Nat) : (deliver e u slot s).inputs = s.inputs := by
  obtain ⟨_, _, _, _, _, _, h⟩ := deliver_frame s e u slot; rw [h]
@[simp] theorem deliver_refclk (e : Entry) (u slot : Nat) : (deliver e u slot s).refclk = s.refclk := by
  obtain ⟨_, _, _, _, _, _, h⟩ := deliver_frame s e u slot; rw [h]
@[simp] theorem deliver_choiceCount (e : Entry) (u slot : Nat) : (deliver e u slot s).choiceCount = s.choiceCount := by
  obtain ⟨_, _, _, _, _, _, h⟩ := deliver_frame s e u slot; rw [h]
@[simp] theorem deliver_orderCount (e : Entry) (u slot : Nat) : (deliver e u slot s).orderCount = s.orderCount := by
  obtain ⟨_, _, _, _, _, _, h⟩ := deliver_frame s e u slot; rw [h]
@[simp] theorem deliver_station (e : Entry) (u slot : Nat) : (deliver e u slot s).station = s.station := by
  obtain ⟨_, _, _, _, _, _, h⟩ := deliver_frame s e u slot; rw [h]
@[simp] theorem deliver_line (e : Entry) (u slot : Nat) : (deliver e u slot s).line = s.line := by
  obtain ⟨_, _, _, _, _, _, h⟩ := deliver_frame s e u slot; rw [h]
@[simp] theorem deliver_assembler (e : Entry) (u slot : Nat) : (deliver e u slot s).assembler = s.assembler := by
  obtain ⟨_, _, _, _, _, _, h⟩ := deliver_frame s e u slot; rw [h]
@[simp] theorem deliver_table (e : Entry) (u slot : Nat) : (deliver e u slot s).table = s.table := by
  obtain ⟨_, _, _, _, _, _, h⟩ := deliver_frame s e u slot; rw [h]
@[simp] theorem deliver_decodeQueue (e : Entry) (u slot : Nat) : (deliver e u slot s).decodeQueue = s.decodeQueue := by
  obtain ⟨_, _, _, _, _, _, h⟩ := deliver_frame s e u slot; rw [h]
@[simp] theorem deliver_decoder (e : Entry) (u slot : Nat) : (deliver e u slot s).decoder = s.decoder := by
  obtain ⟨_, _, _, _, _, _, h⟩ := deliver_frame s e u slot; rw [h]
@[simp] theorem deliver_history (e : Entry) (u slot : Nat) : (deliver e u slot s).history = s.history := by
  obtain ⟨_, _, _, _, _, _, h⟩ := deliver_frame s e u slot; rw [h]
@[simp] theorem deliver_outbox (e : Entry) (u slot : Nat) : (deliver e u slot s).outbox = s.outbox := by
  obtain ⟨_, _, _, _, _, _, h⟩ := deliver_frame s e u slot; rw [h]
@[simp] theorem deliver_reports (e : Entry) (u slot : Nat) : (deliver e u slot s).reports = s.reports := by
  obtain ⟨_, _, _, _, _, _, h⟩ := deliver_frame s e u slot; rw [h]
@[simp] theorem deliver_transmit (e : Entry) (u slot : Nat) : (deliver e u slot s).transmit = s.transmit := by
  obtain ⟨_, _, _, _, _, _, h⟩ := deliver_frame s e u slot; rw [h]
@[simp] theorem deliver_port (e : Entry) (u slot : Nat) : (deliver e u slot s).port = s.port := by
  obtain ⟨_, _, _, _, _, _, h⟩ := deliver_frame s e u slot; rw [h]

/-- What `endDecode` can change. -/
theorem endDecode_frame (slot : Nat) :
    ∃ x0 x1, endDecode slot s = { s with decoder := x0, slots := x1 } := by
  unfold endDecode
  repeat' (first | split | dsimp only)
  all_goals
    (repeat' apply Exists.intro)
    apply State.ext <;> first | with_reducible rfl | simp
@[simp] theorem endDecode_pending (slot : Nat) : (endDecode slot s).pending = s.pending := by
  obtain ⟨_, _, h⟩ := endDecode_frame s slot; rw [h]
@[simp] theorem endDecode_pins (slot : Nat) : (endDecode slot s).pins = s.pins := by
  obtain ⟨_, _, h⟩ := endDecode_frame s slot; rw [h]
@[simp] theorem endDecode_inputs (slot : Nat) : (endDecode slot s).inputs = s.inputs := by
  obtain ⟨_, _, h⟩ := endDecode_frame s slot; rw [h]
@[simp] theorem endDecode_refclk (slot : Nat) : (endDecode slot s).refclk = s.refclk := by
  obtain ⟨_, _, h⟩ := endDecode_frame s slot; rw [h]
@[simp] theorem endDecode_drawCount (slot : Nat) : (endDecode slot s).drawCount = s.drawCount := by
  obtain ⟨_, _, h⟩ := endDecode_frame s slot; rw [h]
@[simp] theorem endDecode_choiceCount (slot : Nat) : (endDecode slot s).choiceCount = s.choiceCount := by
  obtain ⟨_, _, h⟩ := endDecode_frame s slot; rw [h]
@[simp] theorem endDecode_orderCount (slot : Nat) : (endDecode slot s).orderCount = s.orderCount := by
  obtain ⟨_, _, h⟩ := endDecode_frame s slot; rw [h]
@[simp] theorem endDecode_station (slot : Nat) : (endDecode slot s).station = s.station := by
  obtain ⟨_, _, h⟩ := endDecode_frame s slot; rw [h]
@[simp] theorem endDecode_counters (slot : Nat) : (endDecode slot s).counters = s.counters := by
  obtain ⟨_, _, h⟩ := endDecode_frame s slot; rw [h]
@[simp] theorem endDecode_flags (slot : Nat) : (endDecode slot s).flags = s.flags := by
  obtain ⟨_, _, h⟩ := endDecode_frame s slot; rw [h]
@[simp] theorem endDecode_line (slot : Nat) : (endDecode slot s).line = s.line := by
  obtain ⟨_, _, h⟩ := endDecode_frame s slot; rw [h]
@[simp] theorem endDecode_assembler (slot : Nat) : (endDecode slot s).assembler = s.assembler := by
  obtain ⟨_, _, h⟩ := endDecode_frame s slot; rw [h]
@[simp] theorem endDecode_table (slot : Nat) : (endDecode slot s).table = s.table := by
  obtain ⟨_, _, h⟩ := endDecode_frame s slot; rw [h]
@[simp] theorem endDecode_decodeQueue (slot : Nat) : (endDecode slot s).decodeQueue = s.decodeQueue := by
  obtain ⟨_, _, h⟩ := endDecode_frame s slot; rw [h]
@[simp] theorem endDecode_history (slot : Nat) : (endDecode slot s).history = s.history := by
  obtain ⟨_, _, h⟩ := endDecode_frame s slot; rw [h]
@[simp] theorem endDecode_inbox (slot : Nat) : (endDecode slot s).inbox = s.inbox := by
  obtain ⟨_, _, h⟩ := endDecode_frame s slot; rw [h]
@[simp] theorem endDecode_relays (slot : Nat) : (endDecode slot s).relays = s.relays := by
  obtain ⟨_, _, h⟩ := endDecode_frame s slot; rw [h]
@[simp] theorem endDecode_outbox (slot : Nat) : (endDecode slot s).outbox = s.outbox := by
  obtain ⟨_, _, h⟩ := endDecode_frame s slot; rw [h]
@[simp] theorem endDecode_reports (slot : Nat) : (endDecode slot s).reports = s.reports := by
  obtain ⟨_, _, h⟩ := endDecode_frame s slot; rw [h]
@[simp] theorem endDecode_transmit (slot : Nat) : (endDecode slot s).transmit = s.transmit := by
  obtain ⟨_, _, h⟩ := endDecode_frame s slot; rw [h]
@[simp] theorem endDecode_port (slot : Nat) : (endDecode slot s).port = s.port := by
  obtain ⟨_, _, h⟩ := endDecode_frame s slot; rw [h]

/-- What `decodeSuccess` can change. -/
theorem decodeSuccess_frame (d : Decode) (p : List Byte) :
    ∃ x0 x1 x2 x3 x4 x5 x6 x7 x8, decodeSuccess d p s = { s with drawCount := x0, counters := x1, flags := x2, table := x3, decoder := x4, history := x5, slots := x6, inbox := x7, relays := x8 } := by
  unfold decodeSuccess
  repeat' (first | split | dsimp only)
  all_goals
    (repeat' apply Exists.intro)
    apply State.ext <;> first | with_reducible rfl | simp
@[simp] theorem decodeSuccess_pending (d : Decode) (p : List Byte) : (decodeSuccess d p s).pending = s.pending := by
  obtain ⟨_, _, _, _, _, _, _, _, _, h⟩ := decodeSuccess_frame s d p; rw [h]
@[simp] theorem decodeSuccess_pins (d : Decode) (p : List Byte) : (decodeSuccess d p s).pins = s.pins := by
  obtain ⟨_, _, _, _, _, _, _, _, _, h⟩ := decodeSuccess_frame s d p; rw [h]
@[simp] theorem decodeSuccess_inputs (d : Decode) (p : List Byte) : (decodeSuccess d p s).inputs = s.inputs := by
  obtain ⟨_, _, _, _, _, _, _, _, _, h⟩ := decodeSuccess_frame s d p; rw [h]
@[simp] theorem decodeSuccess_refclk (d : Decode) (p : List Byte) : (decodeSuccess d p s).refclk = s.refclk := by
  obtain ⟨_, _, _, _, _, _, _, _, _, h⟩ := decodeSuccess_frame s d p; rw [h]
@[simp] theorem decodeSuccess_choiceCount (d : Decode) (p : List Byte) : (decodeSuccess d p s).choiceCount = s.choiceCount := by
  obtain ⟨_, _, _, _, _, _, _, _, _, h⟩ := decodeSuccess_frame s d p; rw [h]
@[simp] theorem decodeSuccess_orderCount (d : Decode) (p : List Byte) : (decodeSuccess d p s).orderCount = s.orderCount := by
  obtain ⟨_, _, _, _, _, _, _, _, _, h⟩ := decodeSuccess_frame s d p; rw [h]
@[simp] theorem decodeSuccess_station (d : Decode) (p : List Byte) : (decodeSuccess d p s).station = s.station := by
  obtain ⟨_, _, _, _, _, _, _, _, _, h⟩ := decodeSuccess_frame s d p; rw [h]
@[simp] theorem decodeSuccess_line (d : Decode) (p : List Byte) : (decodeSuccess d p s).line = s.line := by
  obtain ⟨_, _, _, _, _, _, _, _, _, h⟩ := decodeSuccess_frame s d p; rw [h]
@[simp] theorem decodeSuccess_assembler (d : Decode) (p : List Byte) : (decodeSuccess d p s).assembler = s.assembler := by
  obtain ⟨_, _, _, _, _, _, _, _, _, h⟩ := decodeSuccess_frame s d p; rw [h]
@[simp] theorem decodeSuccess_decodeQueue (d : Decode) (p : List Byte) : (decodeSuccess d p s).decodeQueue = s.decodeQueue := by
  obtain ⟨_, _, _, _, _, _, _, _, _, h⟩ := decodeSuccess_frame s d p; rw [h]
@[simp] theorem decodeSuccess_outbox (d : Decode) (p : List Byte) : (decodeSuccess d p s).outbox = s.outbox := by
  obtain ⟨_, _, _, _, _, _, _, _, _, h⟩ := decodeSuccess_frame s d p; rw [h]
@[simp] theorem decodeSuccess_reports (d : Decode) (p : List Byte) : (decodeSuccess d p s).reports = s.reports := by
  obtain ⟨_, _, _, _, _, _, _, _, _, h⟩ := decodeSuccess_frame s d p; rw [h]
@[simp] theorem decodeSuccess_transmit (d : Decode) (p : List Byte) : (decodeSuccess d p s).transmit = s.transmit := by
  obtain ⟨_, _, _, _, _, _, _, _, _, h⟩ := decodeSuccess_frame s d p; rw [h]
@[simp] theorem decodeSuccess_port (d : Decode) (p : List Byte) : (decodeSuccess d p s).port = s.port := by
  obtain ⟨_, _, _, _, _, _, _, _, _, h⟩ := decodeSuccess_frame s d p; rw [h]

/-- What `decodeFailure` can change. -/
theorem decodeFailure_frame (d : Decode) :
    ∃ x0 x1 x2 x3 x4, decodeFailure d s = { s with counters := x0, table := x1, decodeQueue := x2, decoder := x3, slots := x4 } := by
  unfold decodeFailure
  repeat' (first | split | dsimp only)
  all_goals
    (repeat' apply Exists.intro)
    apply State.ext <;> first | with_reducible rfl | simp
@[simp] theorem decodeFailure_pending (d : Decode) : (decodeFailure d s).pending = s.pending := by
  obtain ⟨_, _, _, _, _, h⟩ := decodeFailure_frame s d; rw [h]
@[simp] theorem decodeFailure_pins (d : Decode) : (decodeFailure d s).pins = s.pins := by
  obtain ⟨_, _, _, _, _, h⟩ := decodeFailure_frame s d; rw [h]
@[simp] theorem decodeFailure_inputs (d : Decode) : (decodeFailure d s).inputs = s.inputs := by
  obtain ⟨_, _, _, _, _, h⟩ := decodeFailure_frame s d; rw [h]
@[simp] theorem decodeFailure_refclk (d : Decode) : (decodeFailure d s).refclk = s.refclk := by
  obtain ⟨_, _, _, _, _, h⟩ := decodeFailure_frame s d; rw [h]
@[simp] theorem decodeFailure_drawCount (d : Decode) : (decodeFailure d s).drawCount = s.drawCount := by
  obtain ⟨_, _, _, _, _, h⟩ := decodeFailure_frame s d; rw [h]
@[simp] theorem decodeFailure_choiceCount (d : Decode) : (decodeFailure d s).choiceCount = s.choiceCount := by
  obtain ⟨_, _, _, _, _, h⟩ := decodeFailure_frame s d; rw [h]
@[simp] theorem decodeFailure_orderCount (d : Decode) : (decodeFailure d s).orderCount = s.orderCount := by
  obtain ⟨_, _, _, _, _, h⟩ := decodeFailure_frame s d; rw [h]
@[simp] theorem decodeFailure_station (d : Decode) : (decodeFailure d s).station = s.station := by
  obtain ⟨_, _, _, _, _, h⟩ := decodeFailure_frame s d; rw [h]
@[simp] theorem decodeFailure_flags (d : Decode) : (decodeFailure d s).flags = s.flags := by
  obtain ⟨_, _, _, _, _, h⟩ := decodeFailure_frame s d; rw [h]
@[simp] theorem decodeFailure_line (d : Decode) : (decodeFailure d s).line = s.line := by
  obtain ⟨_, _, _, _, _, h⟩ := decodeFailure_frame s d; rw [h]
@[simp] theorem decodeFailure_assembler (d : Decode) : (decodeFailure d s).assembler = s.assembler := by
  obtain ⟨_, _, _, _, _, h⟩ := decodeFailure_frame s d; rw [h]
@[simp] theorem decodeFailure_history (d : Decode) : (decodeFailure d s).history = s.history := by
  obtain ⟨_, _, _, _, _, h⟩ := decodeFailure_frame s d; rw [h]
@[simp] theorem decodeFailure_inbox (d : Decode) : (decodeFailure d s).inbox = s.inbox := by
  obtain ⟨_, _, _, _, _, h⟩ := decodeFailure_frame s d; rw [h]
@[simp] theorem decodeFailure_relays (d : Decode) : (decodeFailure d s).relays = s.relays := by
  obtain ⟨_, _, _, _, _, h⟩ := decodeFailure_frame s d; rw [h]
@[simp] theorem decodeFailure_outbox (d : Decode) : (decodeFailure d s).outbox = s.outbox := by
  obtain ⟨_, _, _, _, _, h⟩ := decodeFailure_frame s d; rw [h]
@[simp] theorem decodeFailure_reports (d : Decode) : (decodeFailure d s).reports = s.reports := by
  obtain ⟨_, _, _, _, _, h⟩ := decodeFailure_frame s d; rw [h]
@[simp] theorem decodeFailure_transmit (d : Decode) : (decodeFailure d s).transmit = s.transmit := by
  obtain ⟨_, _, _, _, _, h⟩ := decodeFailure_frame s d; rw [h]
@[simp] theorem decodeFailure_port (d : Decode) : (decodeFailure d s).port = s.port := by
  obtain ⟨_, _, _, _, _, h⟩ := decodeFailure_frame s d; rw [h]

/-- What `decoderTake` can change. -/
theorem decoderTake_frame :
    ∃ x0 x1 x2 x3, decoderTake s = { s with table := x0, decodeQueue := x1, decoder := x2, slots := x3 } := by
  unfold decoderTake
  repeat' (first | split | dsimp only)
  all_goals
    (repeat' apply Exists.intro)
    apply State.ext <;> first | with_reducible rfl | simp
@[simp] theorem decoderTake_pending : (decoderTake s).pending = s.pending := by
  obtain ⟨_, _, _, _, h⟩ := decoderTake_frame s; rw [h]
@[simp] theorem decoderTake_pins : (decoderTake s).pins = s.pins := by
  obtain ⟨_, _, _, _, h⟩ := decoderTake_frame s; rw [h]
@[simp] theorem decoderTake_inputs : (decoderTake s).inputs = s.inputs := by
  obtain ⟨_, _, _, _, h⟩ := decoderTake_frame s; rw [h]
@[simp] theorem decoderTake_refclk : (decoderTake s).refclk = s.refclk := by
  obtain ⟨_, _, _, _, h⟩ := decoderTake_frame s; rw [h]
@[simp] theorem decoderTake_drawCount : (decoderTake s).drawCount = s.drawCount := by
  obtain ⟨_, _, _, _, h⟩ := decoderTake_frame s; rw [h]
@[simp] theorem decoderTake_choiceCount : (decoderTake s).choiceCount = s.choiceCount := by
  obtain ⟨_, _, _, _, h⟩ := decoderTake_frame s; rw [h]
@[simp] theorem decoderTake_orderCount : (decoderTake s).orderCount = s.orderCount := by
  obtain ⟨_, _, _, _, h⟩ := decoderTake_frame s; rw [h]
@[simp] theorem decoderTake_station : (decoderTake s).station = s.station := by
  obtain ⟨_, _, _, _, h⟩ := decoderTake_frame s; rw [h]
@[simp] theorem decoderTake_counters : (decoderTake s).counters = s.counters := by
  obtain ⟨_, _, _, _, h⟩ := decoderTake_frame s; rw [h]
@[simp] theorem decoderTake_flags : (decoderTake s).flags = s.flags := by
  obtain ⟨_, _, _, _, h⟩ := decoderTake_frame s; rw [h]
@[simp] theorem decoderTake_line : (decoderTake s).line = s.line := by
  obtain ⟨_, _, _, _, h⟩ := decoderTake_frame s; rw [h]
@[simp] theorem decoderTake_assembler : (decoderTake s).assembler = s.assembler := by
  obtain ⟨_, _, _, _, h⟩ := decoderTake_frame s; rw [h]
@[simp] theorem decoderTake_history : (decoderTake s).history = s.history := by
  obtain ⟨_, _, _, _, h⟩ := decoderTake_frame s; rw [h]
@[simp] theorem decoderTake_inbox : (decoderTake s).inbox = s.inbox := by
  obtain ⟨_, _, _, _, h⟩ := decoderTake_frame s; rw [h]
@[simp] theorem decoderTake_relays : (decoderTake s).relays = s.relays := by
  obtain ⟨_, _, _, _, h⟩ := decoderTake_frame s; rw [h]
@[simp] theorem decoderTake_outbox : (decoderTake s).outbox = s.outbox := by
  obtain ⟨_, _, _, _, h⟩ := decoderTake_frame s; rw [h]
@[simp] theorem decoderTake_reports : (decoderTake s).reports = s.reports := by
  obtain ⟨_, _, _, _, h⟩ := decoderTake_frame s; rw [h]
@[simp] theorem decoderTake_transmit : (decoderTake s).transmit = s.transmit := by
  obtain ⟨_, _, _, _, h⟩ := decoderTake_frame s; rw [h]
@[simp] theorem decoderTake_port : (decoderTake s).port = s.port := by
  obtain ⟨_, _, _, _, h⟩ := decoderTake_frame s; rw [h]

/-- What `advance` can change. -/
theorem advance_frame (n : Nat) :
    ∃ x0 x1 x2 x3, advance n s = { s with refclk := x0, station := x1, line := x2, transmit := x3 } := by
  unfold advance
  repeat' (first | split | dsimp only)
  all_goals
    (repeat' apply Exists.intro)
    apply State.ext <;> first | with_reducible rfl | simp
@[simp] theorem advance_pending (n : Nat) : (advance n s).pending = s.pending := by
  obtain ⟨_, _, _, _, h⟩ := advance_frame s n; rw [h]
@[simp] theorem advance_pins (n : Nat) : (advance n s).pins = s.pins := by
  obtain ⟨_, _, _, _, h⟩ := advance_frame s n; rw [h]
@[simp] theorem advance_inputs (n : Nat) : (advance n s).inputs = s.inputs := by
  obtain ⟨_, _, _, _, h⟩ := advance_frame s n; rw [h]
@[simp] theorem advance_drawCount (n : Nat) : (advance n s).drawCount = s.drawCount := by
  obtain ⟨_, _, _, _, h⟩ := advance_frame s n; rw [h]
@[simp] theorem advance_choiceCount (n : Nat) : (advance n s).choiceCount = s.choiceCount := by
  obtain ⟨_, _, _, _, h⟩ := advance_frame s n; rw [h]
@[simp] theorem advance_orderCount (n : Nat) : (advance n s).orderCount = s.orderCount := by
  obtain ⟨_, _, _, _, h⟩ := advance_frame s n; rw [h]
@[simp] theorem advance_counters (n : Nat) : (advance n s).counters = s.counters := by
  obtain ⟨_, _, _, _, h⟩ := advance_frame s n; rw [h]
@[simp] theorem advance_flags (n : Nat) : (advance n s).flags = s.flags := by
  obtain ⟨_, _, _, _, h⟩ := advance_frame s n; rw [h]
@[simp] theorem advance_assembler (n : Nat) : (advance n s).assembler = s.assembler := by
  obtain ⟨_, _, _, _, h⟩ := advance_frame s n; rw [h]
@[simp] theorem advance_table (n : Nat) : (advance n s).table = s.table := by
  obtain ⟨_, _, _, _, h⟩ := advance_frame s n; rw [h]
@[simp] theorem advance_decodeQueue (n : Nat) : (advance n s).decodeQueue = s.decodeQueue := by
  obtain ⟨_, _, _, _, h⟩ := advance_frame s n; rw [h]
@[simp] theorem advance_decoder (n : Nat) : (advance n s).decoder = s.decoder := by
  obtain ⟨_, _, _, _, h⟩ := advance_frame s n; rw [h]
@[simp] theorem advance_history (n : Nat) : (advance n s).history = s.history := by
  obtain ⟨_, _, _, _, h⟩ := advance_frame s n; rw [h]
@[simp] theorem advance_slots (n : Nat) : (advance n s).slots = s.slots := by
  obtain ⟨_, _, _, _, h⟩ := advance_frame s n; rw [h]
@[simp] theorem advance_inbox (n : Nat) : (advance n s).inbox = s.inbox := by
  obtain ⟨_, _, _, _, h⟩ := advance_frame s n; rw [h]
@[simp] theorem advance_relays (n : Nat) : (advance n s).relays = s.relays := by
  obtain ⟨_, _, _, _, h⟩ := advance_frame s n; rw [h]
@[simp] theorem advance_outbox (n : Nat) : (advance n s).outbox = s.outbox := by
  obtain ⟨_, _, _, _, h⟩ := advance_frame s n; rw [h]
@[simp] theorem advance_reports (n : Nat) : (advance n s).reports = s.reports := by
  obtain ⟨_, _, _, _, h⟩ := advance_frame s n; rw [h]
@[simp] theorem advance_port (n : Nat) : (advance n s).port = s.port := by
  obtain ⟨_, _, _, _, h⟩ := advance_frame s n; rw [h]

/-- What `runToTick` can change. -/
theorem runToTick_frame (n : Nat) :
    ∃ x0 x1 x2 x3, runToTick n s = { s with refclk := x0, station := x1, line := x2, transmit := x3 } := by
  unfold runToTick
  repeat' (first | split | dsimp only)
  all_goals
    (repeat' apply Exists.intro)
    apply State.ext <;> first | with_reducible rfl | simp
@[simp] theorem runToTick_pending (n : Nat) : (runToTick n s).pending = s.pending := by
  obtain ⟨_, _, _, _, h⟩ := runToTick_frame s n; rw [h]
@[simp] theorem runToTick_pins (n : Nat) : (runToTick n s).pins = s.pins := by
  obtain ⟨_, _, _, _, h⟩ := runToTick_frame s n; rw [h]
@[simp] theorem runToTick_inputs (n : Nat) : (runToTick n s).inputs = s.inputs := by
  obtain ⟨_, _, _, _, h⟩ := runToTick_frame s n; rw [h]
@[simp] theorem runToTick_drawCount (n : Nat) : (runToTick n s).drawCount = s.drawCount := by
  obtain ⟨_, _, _, _, h⟩ := runToTick_frame s n; rw [h]
@[simp] theorem runToTick_choiceCount (n : Nat) : (runToTick n s).choiceCount = s.choiceCount := by
  obtain ⟨_, _, _, _, h⟩ := runToTick_frame s n; rw [h]
@[simp] theorem runToTick_orderCount (n : Nat) : (runToTick n s).orderCount = s.orderCount := by
  obtain ⟨_, _, _, _, h⟩ := runToTick_frame s n; rw [h]
@[simp] theorem runToTick_counters (n : Nat) : (runToTick n s).counters = s.counters := by
  obtain ⟨_, _, _, _, h⟩ := runToTick_frame s n; rw [h]
@[simp] theorem runToTick_flags (n : Nat) : (runToTick n s).flags = s.flags := by
  obtain ⟨_, _, _, _, h⟩ := runToTick_frame s n; rw [h]
@[simp] theorem runToTick_assembler (n : Nat) : (runToTick n s).assembler = s.assembler := by
  obtain ⟨_, _, _, _, h⟩ := runToTick_frame s n; rw [h]
@[simp] theorem runToTick_table (n : Nat) : (runToTick n s).table = s.table := by
  obtain ⟨_, _, _, _, h⟩ := runToTick_frame s n; rw [h]
@[simp] theorem runToTick_decodeQueue (n : Nat) : (runToTick n s).decodeQueue = s.decodeQueue := by
  obtain ⟨_, _, _, _, h⟩ := runToTick_frame s n; rw [h]
@[simp] theorem runToTick_decoder (n : Nat) : (runToTick n s).decoder = s.decoder := by
  obtain ⟨_, _, _, _, h⟩ := runToTick_frame s n; rw [h]
@[simp] theorem runToTick_history (n : Nat) : (runToTick n s).history = s.history := by
  obtain ⟨_, _, _, _, h⟩ := runToTick_frame s n; rw [h]
@[simp] theorem runToTick_slots (n : Nat) : (runToTick n s).slots = s.slots := by
  obtain ⟨_, _, _, _, h⟩ := runToTick_frame s n; rw [h]
@[simp] theorem runToTick_inbox (n : Nat) : (runToTick n s).inbox = s.inbox := by
  obtain ⟨_, _, _, _, h⟩ := runToTick_frame s n; rw [h]
@[simp] theorem runToTick_relays (n : Nat) : (runToTick n s).relays = s.relays := by
  obtain ⟨_, _, _, _, h⟩ := runToTick_frame s n; rw [h]
@[simp] theorem runToTick_outbox (n : Nat) : (runToTick n s).outbox = s.outbox := by
  obtain ⟨_, _, _, _, h⟩ := runToTick_frame s n; rw [h]
@[simp] theorem runToTick_reports (n : Nat) : (runToTick n s).reports = s.reports := by
  obtain ⟨_, _, _, _, h⟩ := runToTick_frame s n; rw [h]
@[simp] theorem runToTick_port (n : Nat) : (runToTick n s).port = s.port := by
  obtain ⟨_, _, _, _, h⟩ := runToTick_frame s n; rw [h]

/-- What `runToMilli` can change. -/
theorem runToMilli_frame (d : Millis) :
    ∃ x0 x1 x2 x3, runToMilli d s = { s with refclk := x0, station := x1, line := x2, transmit := x3 } := by
  unfold runToMilli
  repeat' (first | split | dsimp only)
  all_goals
    (repeat' apply Exists.intro)
    apply State.ext <;> first | with_reducible rfl | simp
@[simp] theorem runToMilli_pending (d : Millis) : (runToMilli d s).pending = s.pending := by
  obtain ⟨_, _, _, _, h⟩ := runToMilli_frame s d; rw [h]
@[simp] theorem runToMilli_pins (d : Millis) : (runToMilli d s).pins = s.pins := by
  obtain ⟨_, _, _, _, h⟩ := runToMilli_frame s d; rw [h]
@[simp] theorem runToMilli_inputs (d : Millis) : (runToMilli d s).inputs = s.inputs := by
  obtain ⟨_, _, _, _, h⟩ := runToMilli_frame s d; rw [h]
@[simp] theorem runToMilli_drawCount (d : Millis) : (runToMilli d s).drawCount = s.drawCount := by
  obtain ⟨_, _, _, _, h⟩ := runToMilli_frame s d; rw [h]
@[simp] theorem runToMilli_choiceCount (d : Millis) : (runToMilli d s).choiceCount = s.choiceCount := by
  obtain ⟨_, _, _, _, h⟩ := runToMilli_frame s d; rw [h]
@[simp] theorem runToMilli_orderCount (d : Millis) : (runToMilli d s).orderCount = s.orderCount := by
  obtain ⟨_, _, _, _, h⟩ := runToMilli_frame s d; rw [h]
@[simp] theorem runToMilli_counters (d : Millis) : (runToMilli d s).counters = s.counters := by
  obtain ⟨_, _, _, _, h⟩ := runToMilli_frame s d; rw [h]
@[simp] theorem runToMilli_flags (d : Millis) : (runToMilli d s).flags = s.flags := by
  obtain ⟨_, _, _, _, h⟩ := runToMilli_frame s d; rw [h]
@[simp] theorem runToMilli_assembler (d : Millis) : (runToMilli d s).assembler = s.assembler := by
  obtain ⟨_, _, _, _, h⟩ := runToMilli_frame s d; rw [h]
@[simp] theorem runToMilli_table (d : Millis) : (runToMilli d s).table = s.table := by
  obtain ⟨_, _, _, _, h⟩ := runToMilli_frame s d; rw [h]
@[simp] theorem runToMilli_decodeQueue (d : Millis) : (runToMilli d s).decodeQueue = s.decodeQueue := by
  obtain ⟨_, _, _, _, h⟩ := runToMilli_frame s d; rw [h]
@[simp] theorem runToMilli_decoder (d : Millis) : (runToMilli d s).decoder = s.decoder := by
  obtain ⟨_, _, _, _, h⟩ := runToMilli_frame s d; rw [h]
@[simp] theorem runToMilli_history (d : Millis) : (runToMilli d s).history = s.history := by
  obtain ⟨_, _, _, _, h⟩ := runToMilli_frame s d; rw [h]
@[simp] theorem runToMilli_slots (d : Millis) : (runToMilli d s).slots = s.slots := by
  obtain ⟨_, _, _, _, h⟩ := runToMilli_frame s d; rw [h]
@[simp] theorem runToMilli_inbox (d : Millis) : (runToMilli d s).inbox = s.inbox := by
  obtain ⟨_, _, _, _, h⟩ := runToMilli_frame s d; rw [h]
@[simp] theorem runToMilli_relays (d : Millis) : (runToMilli d s).relays = s.relays := by
  obtain ⟨_, _, _, _, h⟩ := runToMilli_frame s d; rw [h]
@[simp] theorem runToMilli_outbox (d : Millis) : (runToMilli d s).outbox = s.outbox := by
  obtain ⟨_, _, _, _, h⟩ := runToMilli_frame s d; rw [h]
@[simp] theorem runToMilli_reports (d : Millis) : (runToMilli d s).reports = s.reports := by
  obtain ⟨_, _, _, _, h⟩ := runToMilli_frame s d; rw [h]
@[simp] theorem runToMilli_port (d : Millis) : (runToMilli d s).port = s.port := by
  obtain ⟨_, _, _, _, h⟩ := runToMilli_frame s d; rw [h]

/-- What `runToPeriod` can change. -/
theorem runToPeriod_frame (n : Nat) :
    ∃ x0 x1 x2 x3, runToPeriod n s = { s with refclk := x0, station := x1, line := x2, transmit := x3 } := by
  unfold runToPeriod
  repeat' (first | split | dsimp only)
  all_goals
    (repeat' apply Exists.intro)
    apply State.ext <;> first | with_reducible rfl | simp
@[simp] theorem runToPeriod_pending (n : Nat) : (runToPeriod n s).pending = s.pending := by
  obtain ⟨_, _, _, _, h⟩ := runToPeriod_frame s n; rw [h]
@[simp] theorem runToPeriod_pins (n : Nat) : (runToPeriod n s).pins = s.pins := by
  obtain ⟨_, _, _, _, h⟩ := runToPeriod_frame s n; rw [h]
@[simp] theorem runToPeriod_inputs (n : Nat) : (runToPeriod n s).inputs = s.inputs := by
  obtain ⟨_, _, _, _, h⟩ := runToPeriod_frame s n; rw [h]
@[simp] theorem runToPeriod_drawCount (n : Nat) : (runToPeriod n s).drawCount = s.drawCount := by
  obtain ⟨_, _, _, _, h⟩ := runToPeriod_frame s n; rw [h]
@[simp] theorem runToPeriod_choiceCount (n : Nat) : (runToPeriod n s).choiceCount = s.choiceCount := by
  obtain ⟨_, _, _, _, h⟩ := runToPeriod_frame s n; rw [h]
@[simp] theorem runToPeriod_orderCount (n : Nat) : (runToPeriod n s).orderCount = s.orderCount := by
  obtain ⟨_, _, _, _, h⟩ := runToPeriod_frame s n; rw [h]
@[simp] theorem runToPeriod_counters (n : Nat) : (runToPeriod n s).counters = s.counters := by
  obtain ⟨_, _, _, _, h⟩ := runToPeriod_frame s n; rw [h]
@[simp] theorem runToPeriod_flags (n : Nat) : (runToPeriod n s).flags = s.flags := by
  obtain ⟨_, _, _, _, h⟩ := runToPeriod_frame s n; rw [h]
@[simp] theorem runToPeriod_assembler (n : Nat) : (runToPeriod n s).assembler = s.assembler := by
  obtain ⟨_, _, _, _, h⟩ := runToPeriod_frame s n; rw [h]
@[simp] theorem runToPeriod_table (n : Nat) : (runToPeriod n s).table = s.table := by
  obtain ⟨_, _, _, _, h⟩ := runToPeriod_frame s n; rw [h]
@[simp] theorem runToPeriod_decodeQueue (n : Nat) : (runToPeriod n s).decodeQueue = s.decodeQueue := by
  obtain ⟨_, _, _, _, h⟩ := runToPeriod_frame s n; rw [h]
@[simp] theorem runToPeriod_decoder (n : Nat) : (runToPeriod n s).decoder = s.decoder := by
  obtain ⟨_, _, _, _, h⟩ := runToPeriod_frame s n; rw [h]
@[simp] theorem runToPeriod_history (n : Nat) : (runToPeriod n s).history = s.history := by
  obtain ⟨_, _, _, _, h⟩ := runToPeriod_frame s n; rw [h]
@[simp] theorem runToPeriod_slots (n : Nat) : (runToPeriod n s).slots = s.slots := by
  obtain ⟨_, _, _, _, h⟩ := runToPeriod_frame s n; rw [h]
@[simp] theorem runToPeriod_inbox (n : Nat) : (runToPeriod n s).inbox = s.inbox := by
  obtain ⟨_, _, _, _, h⟩ := runToPeriod_frame s n; rw [h]
@[simp] theorem runToPeriod_relays (n : Nat) : (runToPeriod n s).relays = s.relays := by
  obtain ⟨_, _, _, _, h⟩ := runToPeriod_frame s n; rw [h]
@[simp] theorem runToPeriod_outbox (n : Nat) : (runToPeriod n s).outbox = s.outbox := by
  obtain ⟨_, _, _, _, h⟩ := runToPeriod_frame s n; rw [h]
@[simp] theorem runToPeriod_reports (n : Nat) : (runToPeriod n s).reports = s.reports := by
  obtain ⟨_, _, _, _, h⟩ := runToPeriod_frame s n; rw [h]
@[simp] theorem runToPeriod_port (n : Nat) : (runToPeriod n s).port = s.port := by
  obtain ⟨_, _, _, _, h⟩ := runToPeriod_frame s n; rw [h]

/-- What `decodeCompletion` can change. -/
theorem decodeCompletion_frame :
    ∃ x0 x1 x2 x3 x4 x5 x6 x7 x8 x9 x10 x11 x12 x13, decodeCompletion s = { s with refclk := x0, drawCount := x1, station := x2, counters := x3, flags := x4, line := x5, table := x6, decodeQueue := x7, decoder := x8, history := x9, slots := x10, inbox := x11, relays := x12, transmit := x13 } := by
  unfold decodeCompletion
  repeat' (first | split | dsimp only)
  all_goals
    (repeat' apply Exists.intro)
    apply State.ext <;> first | with_reducible rfl | simp
@[simp] theorem decodeCompletion_pending : (decodeCompletion s).pending = s.pending := by
  obtain ⟨_, _, _, _, _, _, _, _, _, _, _, _, _, _, h⟩ := decodeCompletion_frame s; rw [h]
@[simp] theorem decodeCompletion_pins : (decodeCompletion s).pins = s.pins := by
  obtain ⟨_, _, _, _, _, _, _, _, _, _, _, _, _, _, h⟩ := decodeCompletion_frame s; rw [h]
@[simp] theorem decodeCompletion_inputs : (decodeCompletion s).inputs = s.inputs := by
  obtain ⟨_, _, _, _, _, _, _, _, _, _, _, _, _, _, h⟩ := decodeCompletion_frame s; rw [h]
@[simp] theorem decodeCompletion_choiceCount : (decodeCompletion s).choiceCount = s.choiceCount := by
  obtain ⟨_, _, _, _, _, _, _, _, _, _, _, _, _, _, h⟩ := decodeCompletion_frame s; rw [h]
@[simp] theorem decodeCompletion_orderCount : (decodeCompletion s).orderCount = s.orderCount := by
  obtain ⟨_, _, _, _, _, _, _, _, _, _, _, _, _, _, h⟩ := decodeCompletion_frame s; rw [h]
@[simp] theorem decodeCompletion_assembler : (decodeCompletion s).assembler = s.assembler := by
  obtain ⟨_, _, _, _, _, _, _, _, _, _, _, _, _, _, h⟩ := decodeCompletion_frame s; rw [h]
@[simp] theorem decodeCompletion_outbox : (decodeCompletion s).outbox = s.outbox := by
  obtain ⟨_, _, _, _, _, _, _, _, _, _, _, _, _, _, h⟩ := decodeCompletion_frame s; rw [h]
@[simp] theorem decodeCompletion_reports : (decodeCompletion s).reports = s.reports := by
  obtain ⟨_, _, _, _, _, _, _, _, _, _, _, _, _, _, h⟩ := decodeCompletion_frame s; rw [h]
@[simp] theorem decodeCompletion_port : (decodeCompletion s).port = s.port := by
  obtain ⟨_, _, _, _, _, _, _, _, _, _, _, _, _, _, h⟩ := decodeCompletion_frame s; rw [h]

/-- What `removeOrigin` can change. -/
theorem removeOrigin_frame (i : Nat) (o : OriginItem) :
    ∃ x0 x1 x2, removeOrigin i o s = { s with slots := x0, outbox := x1, transmit := x2 } := by
  unfold removeOrigin
  repeat' (first | split | dsimp only)
  all_goals
    (repeat' apply Exists.intro)
    apply State.ext <;> first | with_reducible rfl | simp
@[simp] theorem removeOrigin_pending (i : Nat) (o : OriginItem) : (removeOrigin i o s).pending = s.pending := by
  obtain ⟨_, _, _, h⟩ := removeOrigin_frame s i o; rw [h]
@[simp] theorem removeOrigin_pins (i : Nat) (o : OriginItem) : (removeOrigin i o s).pins = s.pins := by
  obtain ⟨_, _, _, h⟩ := removeOrigin_frame s i o; rw [h]
@[simp] theorem removeOrigin_inputs (i : Nat) (o : OriginItem) : (removeOrigin i o s).inputs = s.inputs := by
  obtain ⟨_, _, _, h⟩ := removeOrigin_frame s i o; rw [h]
@[simp] theorem removeOrigin_refclk (i : Nat) (o : OriginItem) : (removeOrigin i o s).refclk = s.refclk := by
  obtain ⟨_, _, _, h⟩ := removeOrigin_frame s i o; rw [h]
@[simp] theorem removeOrigin_drawCount (i : Nat) (o : OriginItem) : (removeOrigin i o s).drawCount = s.drawCount := by
  obtain ⟨_, _, _, h⟩ := removeOrigin_frame s i o; rw [h]
@[simp] theorem removeOrigin_choiceCount (i : Nat) (o : OriginItem) : (removeOrigin i o s).choiceCount = s.choiceCount := by
  obtain ⟨_, _, _, h⟩ := removeOrigin_frame s i o; rw [h]
@[simp] theorem removeOrigin_orderCount (i : Nat) (o : OriginItem) : (removeOrigin i o s).orderCount = s.orderCount := by
  obtain ⟨_, _, _, h⟩ := removeOrigin_frame s i o; rw [h]
@[simp] theorem removeOrigin_station (i : Nat) (o : OriginItem) : (removeOrigin i o s).station = s.station := by
  obtain ⟨_, _, _, h⟩ := removeOrigin_frame s i o; rw [h]
@[simp] theorem removeOrigin_counters (i : Nat) (o : OriginItem) : (removeOrigin i o s).counters = s.counters := by
  obtain ⟨_, _, _, h⟩ := removeOrigin_frame s i o; rw [h]
@[simp] theorem removeOrigin_flags (i : Nat) (o : OriginItem) : (removeOrigin i o s).flags = s.flags := by
  obtain ⟨_, _, _, h⟩ := removeOrigin_frame s i o; rw [h]
@[simp] theorem removeOrigin_line (i : Nat) (o : OriginItem) : (removeOrigin i o s).line = s.line := by
  obtain ⟨_, _, _, h⟩ := removeOrigin_frame s i o; rw [h]
@[simp] theorem removeOrigin_assembler (i : Nat) (o : OriginItem) : (removeOrigin i o s).assembler = s.assembler := by
  obtain ⟨_, _, _, h⟩ := removeOrigin_frame s i o; rw [h]
@[simp] theorem removeOrigin_table (i : Nat) (o : OriginItem) : (removeOrigin i o s).table = s.table := by
  obtain ⟨_, _, _, h⟩ := removeOrigin_frame s i o; rw [h]
@[simp] theorem removeOrigin_decodeQueue (i : Nat) (o : OriginItem) : (removeOrigin i o s).decodeQueue = s.decodeQueue := by
  obtain ⟨_, _, _, h⟩ := removeOrigin_frame s i o; rw [h]
@[simp] theorem removeOrigin_decoder (i : Nat) (o : OriginItem) : (removeOrigin i o s).decoder = s.decoder := by
  obtain ⟨_, _, _, h⟩ := removeOrigin_frame s i o; rw [h]
@[simp] theorem removeOrigin_history (i : Nat) (o : OriginItem) : (removeOrigin i o s).history = s.history := by
  obtain ⟨_, _, _, h⟩ := removeOrigin_frame s i o; rw [h]
@[simp] theorem removeOrigin_inbox (i : Nat) (o : OriginItem) : (removeOrigin i o s).inbox = s.inbox := by
  obtain ⟨_, _, _, h⟩ := removeOrigin_frame s i o; rw [h]
@[simp] theorem removeOrigin_relays (i : Nat) (o : OriginItem) : (removeOrigin i o s).relays = s.relays := by
  obtain ⟨_, _, _, h⟩ := removeOrigin_frame s i o; rw [h]
@[simp] theorem removeOrigin_reports (i : Nat) (o : OriginItem) : (removeOrigin i o s).reports = s.reports := by
  obtain ⟨_, _, _, h⟩ := removeOrigin_frame s i o; rw [h]
@[simp] theorem removeOrigin_port (i : Nat) (o : OriginItem) : (removeOrigin i o s).port = s.port := by
  obtain ⟨_, _, _, h⟩ := removeOrigin_frame s i o; rw [h]

/-- What `fileReport` can change. -/
theorem fileReport_frame (i : Nat) (o : OriginItem) :
    ∃ x0 x1 x2 x3, fileReport i o s = { s with slots := x0, outbox := x1, reports := x2, transmit := x3 } := by
  unfold fileReport
  repeat' (first | split | dsimp only)
  all_goals
    (repeat' apply Exists.intro)
    apply State.ext <;> first | with_reducible rfl | simp
@[simp] theorem fileReport_pending (i : Nat) (o : OriginItem) : (fileReport i o s).pending = s.pending := by
  obtain ⟨_, _, _, _, h⟩ := fileReport_frame s i o; rw [h]
@[simp] theorem fileReport_pins (i : Nat) (o : OriginItem) : (fileReport i o s).pins = s.pins := by
  obtain ⟨_, _, _, _, h⟩ := fileReport_frame s i o; rw [h]
@[simp] theorem fileReport_inputs (i : Nat) (o : OriginItem) : (fileReport i o s).inputs = s.inputs := by
  obtain ⟨_, _, _, _, h⟩ := fileReport_frame s i o; rw [h]
@[simp] theorem fileReport_refclk (i : Nat) (o : OriginItem) : (fileReport i o s).refclk = s.refclk := by
  obtain ⟨_, _, _, _, h⟩ := fileReport_frame s i o; rw [h]
@[simp] theorem fileReport_drawCount (i : Nat) (o : OriginItem) : (fileReport i o s).drawCount = s.drawCount := by
  obtain ⟨_, _, _, _, h⟩ := fileReport_frame s i o; rw [h]
@[simp] theorem fileReport_choiceCount (i : Nat) (o : OriginItem) : (fileReport i o s).choiceCount = s.choiceCount := by
  obtain ⟨_, _, _, _, h⟩ := fileReport_frame s i o; rw [h]
@[simp] theorem fileReport_orderCount (i : Nat) (o : OriginItem) : (fileReport i o s).orderCount = s.orderCount := by
  obtain ⟨_, _, _, _, h⟩ := fileReport_frame s i o; rw [h]
@[simp] theorem fileReport_station (i : Nat) (o : OriginItem) : (fileReport i o s).station = s.station := by
  obtain ⟨_, _, _, _, h⟩ := fileReport_frame s i o; rw [h]
@[simp] theorem fileReport_counters (i : Nat) (o : OriginItem) : (fileReport i o s).counters = s.counters := by
  obtain ⟨_, _, _, _, h⟩ := fileReport_frame s i o; rw [h]
@[simp] theorem fileReport_flags (i : Nat) (o : OriginItem) : (fileReport i o s).flags = s.flags := by
  obtain ⟨_, _, _, _, h⟩ := fileReport_frame s i o; rw [h]
@[simp] theorem fileReport_line (i : Nat) (o : OriginItem) : (fileReport i o s).line = s.line := by
  obtain ⟨_, _, _, _, h⟩ := fileReport_frame s i o; rw [h]
@[simp] theorem fileReport_assembler (i : Nat) (o : OriginItem) : (fileReport i o s).assembler = s.assembler := by
  obtain ⟨_, _, _, _, h⟩ := fileReport_frame s i o; rw [h]
@[simp] theorem fileReport_table (i : Nat) (o : OriginItem) : (fileReport i o s).table = s.table := by
  obtain ⟨_, _, _, _, h⟩ := fileReport_frame s i o; rw [h]
@[simp] theorem fileReport_decodeQueue (i : Nat) (o : OriginItem) : (fileReport i o s).decodeQueue = s.decodeQueue := by
  obtain ⟨_, _, _, _, h⟩ := fileReport_frame s i o; rw [h]
@[simp] theorem fileReport_decoder (i : Nat) (o : OriginItem) : (fileReport i o s).decoder = s.decoder := by
  obtain ⟨_, _, _, _, h⟩ := fileReport_frame s i o; rw [h]
@[simp] theorem fileReport_history (i : Nat) (o : OriginItem) : (fileReport i o s).history = s.history := by
  obtain ⟨_, _, _, _, h⟩ := fileReport_frame s i o; rw [h]
@[simp] theorem fileReport_inbox (i : Nat) (o : OriginItem) : (fileReport i o s).inbox = s.inbox := by
  obtain ⟨_, _, _, _, h⟩ := fileReport_frame s i o; rw [h]
@[simp] theorem fileReport_relays (i : Nat) (o : OriginItem) : (fileReport i o s).relays = s.relays := by
  obtain ⟨_, _, _, _, h⟩ := fileReport_frame s i o; rw [h]
@[simp] theorem fileReport_port (i : Nat) (o : OriginItem) : (fileReport i o s).port = s.port := by
  obtain ⟨_, _, _, _, h⟩ := fileReport_frame s i o; rw [h]

/-- What `makeReport` can change. -/
theorem makeReport_frame (i : Nat) :
    ∃ x0 x1 x2 x3, makeReport i s = { s with slots := x0, outbox := x1, reports := x2, transmit := x3 } := by
  unfold makeReport
  repeat' (first | split | dsimp only)
  all_goals
    (repeat' apply Exists.intro)
    apply State.ext <;> first | with_reducible rfl | simp
@[simp] theorem makeReport_pending (i : Nat) : (makeReport i s).pending = s.pending := by
  obtain ⟨_, _, _, _, h⟩ := makeReport_frame s i; rw [h]
@[simp] theorem makeReport_pins (i : Nat) : (makeReport i s).pins = s.pins := by
  obtain ⟨_, _, _, _, h⟩ := makeReport_frame s i; rw [h]
@[simp] theorem makeReport_inputs (i : Nat) : (makeReport i s).inputs = s.inputs := by
  obtain ⟨_, _, _, _, h⟩ := makeReport_frame s i; rw [h]
@[simp] theorem makeReport_refclk (i : Nat) : (makeReport i s).refclk = s.refclk := by
  obtain ⟨_, _, _, _, h⟩ := makeReport_frame s i; rw [h]
@[simp] theorem makeReport_drawCount (i : Nat) : (makeReport i s).drawCount = s.drawCount := by
  obtain ⟨_, _, _, _, h⟩ := makeReport_frame s i; rw [h]
@[simp] theorem makeReport_choiceCount (i : Nat) : (makeReport i s).choiceCount = s.choiceCount := by
  obtain ⟨_, _, _, _, h⟩ := makeReport_frame s i; rw [h]
@[simp] theorem makeReport_orderCount (i : Nat) : (makeReport i s).orderCount = s.orderCount := by
  obtain ⟨_, _, _, _, h⟩ := makeReport_frame s i; rw [h]
@[simp] theorem makeReport_station (i : Nat) : (makeReport i s).station = s.station := by
  obtain ⟨_, _, _, _, h⟩ := makeReport_frame s i; rw [h]
@[simp] theorem makeReport_counters (i : Nat) : (makeReport i s).counters = s.counters := by
  obtain ⟨_, _, _, _, h⟩ := makeReport_frame s i; rw [h]
@[simp] theorem makeReport_flags (i : Nat) : (makeReport i s).flags = s.flags := by
  obtain ⟨_, _, _, _, h⟩ := makeReport_frame s i; rw [h]
@[simp] theorem makeReport_line (i : Nat) : (makeReport i s).line = s.line := by
  obtain ⟨_, _, _, _, h⟩ := makeReport_frame s i; rw [h]
@[simp] theorem makeReport_assembler (i : Nat) : (makeReport i s).assembler = s.assembler := by
  obtain ⟨_, _, _, _, h⟩ := makeReport_frame s i; rw [h]
@[simp] theorem makeReport_table (i : Nat) : (makeReport i s).table = s.table := by
  obtain ⟨_, _, _, _, h⟩ := makeReport_frame s i; rw [h]
@[simp] theorem makeReport_decodeQueue (i : Nat) : (makeReport i s).decodeQueue = s.decodeQueue := by
  obtain ⟨_, _, _, _, h⟩ := makeReport_frame s i; rw [h]
@[simp] theorem makeReport_decoder (i : Nat) : (makeReport i s).decoder = s.decoder := by
  obtain ⟨_, _, _, _, h⟩ := makeReport_frame s i; rw [h]
@[simp] theorem makeReport_history (i : Nat) : (makeReport i s).history = s.history := by
  obtain ⟨_, _, _, _, h⟩ := makeReport_frame s i; rw [h]
@[simp] theorem makeReport_inbox (i : Nat) : (makeReport i s).inbox = s.inbox := by
  obtain ⟨_, _, _, _, h⟩ := makeReport_frame s i; rw [h]
@[simp] theorem makeReport_relays (i : Nat) : (makeReport i s).relays = s.relays := by
  obtain ⟨_, _, _, _, h⟩ := makeReport_frame s i; rw [h]
@[simp] theorem makeReport_port (i : Nat) : (makeReport i s).port = s.port := by
  obtain ⟨_, _, _, _, h⟩ := makeReport_frame s i; rw [h]

/-- What `removeReport` can change. -/
theorem removeReport_frame :
    ∃ x0 x1 x2 x3, removeReport s = { s with slots := x0, outbox := x1, reports := x2, transmit := x3 } := by
  unfold removeReport
  repeat' (first | split | dsimp only)
  all_goals
    (repeat' apply Exists.intro)
    apply State.ext <;> first | with_reducible rfl | simp
@[simp] theorem removeReport_pending : (removeReport s).pending = s.pending := by
  obtain ⟨_, _, _, _, h⟩ := removeReport_frame s; rw [h]
@[simp] theorem removeReport_pins : (removeReport s).pins = s.pins := by
  obtain ⟨_, _, _, _, h⟩ := removeReport_frame s; rw [h]
@[simp] theorem removeReport_inputs : (removeReport s).inputs = s.inputs := by
  obtain ⟨_, _, _, _, h⟩ := removeReport_frame s; rw [h]
@[simp] theorem removeReport_refclk : (removeReport s).refclk = s.refclk := by
  obtain ⟨_, _, _, _, h⟩ := removeReport_frame s; rw [h]
@[simp] theorem removeReport_drawCount : (removeReport s).drawCount = s.drawCount := by
  obtain ⟨_, _, _, _, h⟩ := removeReport_frame s; rw [h]
@[simp] theorem removeReport_choiceCount : (removeReport s).choiceCount = s.choiceCount := by
  obtain ⟨_, _, _, _, h⟩ := removeReport_frame s; rw [h]
@[simp] theorem removeReport_orderCount : (removeReport s).orderCount = s.orderCount := by
  obtain ⟨_, _, _, _, h⟩ := removeReport_frame s; rw [h]
@[simp] theorem removeReport_station : (removeReport s).station = s.station := by
  obtain ⟨_, _, _, _, h⟩ := removeReport_frame s; rw [h]
@[simp] theorem removeReport_counters : (removeReport s).counters = s.counters := by
  obtain ⟨_, _, _, _, h⟩ := removeReport_frame s; rw [h]
@[simp] theorem removeReport_flags : (removeReport s).flags = s.flags := by
  obtain ⟨_, _, _, _, h⟩ := removeReport_frame s; rw [h]
@[simp] theorem removeReport_line : (removeReport s).line = s.line := by
  obtain ⟨_, _, _, _, h⟩ := removeReport_frame s; rw [h]
@[simp] theorem removeReport_assembler : (removeReport s).assembler = s.assembler := by
  obtain ⟨_, _, _, _, h⟩ := removeReport_frame s; rw [h]
@[simp] theorem removeReport_table : (removeReport s).table = s.table := by
  obtain ⟨_, _, _, _, h⟩ := removeReport_frame s; rw [h]
@[simp] theorem removeReport_decodeQueue : (removeReport s).decodeQueue = s.decodeQueue := by
  obtain ⟨_, _, _, _, h⟩ := removeReport_frame s; rw [h]
@[simp] theorem removeReport_decoder : (removeReport s).decoder = s.decoder := by
  obtain ⟨_, _, _, _, h⟩ := removeReport_frame s; rw [h]
@[simp] theorem removeReport_history : (removeReport s).history = s.history := by
  obtain ⟨_, _, _, _, h⟩ := removeReport_frame s; rw [h]
@[simp] theorem removeReport_inbox : (removeReport s).inbox = s.inbox := by
  obtain ⟨_, _, _, _, h⟩ := removeReport_frame s; rw [h]
@[simp] theorem removeReport_relays : (removeReport s).relays = s.relays := by
  obtain ⟨_, _, _, _, h⟩ := removeReport_frame s; rw [h]
@[simp] theorem removeReport_port : (removeReport s).port = s.port := by
  obtain ⟨_, _, _, _, h⟩ := removeReport_frame s; rw [h]

/-- What `endRepeat` can change. -/
theorem endRepeat_frame (b : Bool) (i : Nat) :
    ∃ x0 x1 x2 x3 x4 x5, endRepeat b i s = { s with drawCount := x0, counters := x1, slots := x2, outbox := x3, reports := x4, transmit := x5 } := by
  unfold endRepeat
  repeat' (first | split | dsimp only)
  all_goals
    (repeat' apply Exists.intro)
    apply State.ext <;> first | with_reducible rfl | simp
@[simp] theorem endRepeat_pending (b : Bool) (i : Nat) : (endRepeat b i s).pending = s.pending := by
  obtain ⟨_, _, _, _, _, _, h⟩ := endRepeat_frame s b i; rw [h]
@[simp] theorem endRepeat_pins (b : Bool) (i : Nat) : (endRepeat b i s).pins = s.pins := by
  obtain ⟨_, _, _, _, _, _, h⟩ := endRepeat_frame s b i; rw [h]
@[simp] theorem endRepeat_inputs (b : Bool) (i : Nat) : (endRepeat b i s).inputs = s.inputs := by
  obtain ⟨_, _, _, _, _, _, h⟩ := endRepeat_frame s b i; rw [h]
@[simp] theorem endRepeat_refclk (b : Bool) (i : Nat) : (endRepeat b i s).refclk = s.refclk := by
  obtain ⟨_, _, _, _, _, _, h⟩ := endRepeat_frame s b i; rw [h]
@[simp] theorem endRepeat_choiceCount (b : Bool) (i : Nat) : (endRepeat b i s).choiceCount = s.choiceCount := by
  obtain ⟨_, _, _, _, _, _, h⟩ := endRepeat_frame s b i; rw [h]
@[simp] theorem endRepeat_orderCount (b : Bool) (i : Nat) : (endRepeat b i s).orderCount = s.orderCount := by
  obtain ⟨_, _, _, _, _, _, h⟩ := endRepeat_frame s b i; rw [h]
@[simp] theorem endRepeat_station (b : Bool) (i : Nat) : (endRepeat b i s).station = s.station := by
  obtain ⟨_, _, _, _, _, _, h⟩ := endRepeat_frame s b i; rw [h]
@[simp] theorem endRepeat_flags (b : Bool) (i : Nat) : (endRepeat b i s).flags = s.flags := by
  obtain ⟨_, _, _, _, _, _, h⟩ := endRepeat_frame s b i; rw [h]
@[simp] theorem endRepeat_line (b : Bool) (i : Nat) : (endRepeat b i s).line = s.line := by
  obtain ⟨_, _, _, _, _, _, h⟩ := endRepeat_frame s b i; rw [h]
@[simp] theorem endRepeat_assembler (b : Bool) (i : Nat) : (endRepeat b i s).assembler = s.assembler := by
  obtain ⟨_, _, _, _, _, _, h⟩ := endRepeat_frame s b i; rw [h]
@[simp] theorem endRepeat_table (b : Bool) (i : Nat) : (endRepeat b i s).table = s.table := by
  obtain ⟨_, _, _, _, _, _, h⟩ := endRepeat_frame s b i; rw [h]
@[simp] theorem endRepeat_decodeQueue (b : Bool) (i : Nat) : (endRepeat b i s).decodeQueue = s.decodeQueue := by
  obtain ⟨_, _, _, _, _, _, h⟩ := endRepeat_frame s b i; rw [h]
@[simp] theorem endRepeat_decoder (b : Bool) (i : Nat) : (endRepeat b i s).decoder = s.decoder := by
  obtain ⟨_, _, _, _, _, _, h⟩ := endRepeat_frame s b i; rw [h]
@[simp] theorem endRepeat_history (b : Bool) (i : Nat) : (endRepeat b i s).history = s.history := by
  obtain ⟨_, _, _, _, _, _, h⟩ := endRepeat_frame s b i; rw [h]
@[simp] theorem endRepeat_inbox (b : Bool) (i : Nat) : (endRepeat b i s).inbox = s.inbox := by
  obtain ⟨_, _, _, _, _, _, h⟩ := endRepeat_frame s b i; rw [h]
@[simp] theorem endRepeat_relays (b : Bool) (i : Nat) : (endRepeat b i s).relays = s.relays := by
  obtain ⟨_, _, _, _, _, _, h⟩ := endRepeat_frame s b i; rw [h]
@[simp] theorem endRepeat_port (b : Bool) (i : Nat) : (endRepeat b i s).port = s.port := by
  obtain ⟨_, _, _, _, _, _, h⟩ := endRepeat_frame s b i; rw [h]

/-- What `markContending` can change. -/
theorem markContending_frame (g : Granted) :
    ∃ x0 x1, markContending g s = { s with relays := x0, outbox := x1 } := by
  unfold markContending
  repeat' (first | split | dsimp only)
  all_goals
    (repeat' apply Exists.intro)
    apply State.ext <;> first | with_reducible rfl | simp
@[simp] theorem markContending_pending (g : Granted) : (markContending g s).pending = s.pending := by
  obtain ⟨_, _, h⟩ := markContending_frame s g; rw [h]
@[simp] theorem markContending_pins (g : Granted) : (markContending g s).pins = s.pins := by
  obtain ⟨_, _, h⟩ := markContending_frame s g; rw [h]
@[simp] theorem markContending_inputs (g : Granted) : (markContending g s).inputs = s.inputs := by
  obtain ⟨_, _, h⟩ := markContending_frame s g; rw [h]
@[simp] theorem markContending_refclk (g : Granted) : (markContending g s).refclk = s.refclk := by
  obtain ⟨_, _, h⟩ := markContending_frame s g; rw [h]
@[simp] theorem markContending_drawCount (g : Granted) : (markContending g s).drawCount = s.drawCount := by
  obtain ⟨_, _, h⟩ := markContending_frame s g; rw [h]
@[simp] theorem markContending_choiceCount (g : Granted) : (markContending g s).choiceCount = s.choiceCount := by
  obtain ⟨_, _, h⟩ := markContending_frame s g; rw [h]
@[simp] theorem markContending_orderCount (g : Granted) : (markContending g s).orderCount = s.orderCount := by
  obtain ⟨_, _, h⟩ := markContending_frame s g; rw [h]
@[simp] theorem markContending_station (g : Granted) : (markContending g s).station = s.station := by
  obtain ⟨_, _, h⟩ := markContending_frame s g; rw [h]
@[simp] theorem markContending_counters (g : Granted) : (markContending g s).counters = s.counters := by
  obtain ⟨_, _, h⟩ := markContending_frame s g; rw [h]
@[simp] theorem markContending_flags (g : Granted) : (markContending g s).flags = s.flags := by
  obtain ⟨_, _, h⟩ := markContending_frame s g; rw [h]
@[simp] theorem markContending_line (g : Granted) : (markContending g s).line = s.line := by
  obtain ⟨_, _, h⟩ := markContending_frame s g; rw [h]
@[simp] theorem markContending_assembler (g : Granted) : (markContending g s).assembler = s.assembler := by
  obtain ⟨_, _, h⟩ := markContending_frame s g; rw [h]
@[simp] theorem markContending_table (g : Granted) : (markContending g s).table = s.table := by
  obtain ⟨_, _, h⟩ := markContending_frame s g; rw [h]
@[simp] theorem markContending_decodeQueue (g : Granted) : (markContending g s).decodeQueue = s.decodeQueue := by
  obtain ⟨_, _, h⟩ := markContending_frame s g; rw [h]
@[simp] theorem markContending_decoder (g : Granted) : (markContending g s).decoder = s.decoder := by
  obtain ⟨_, _, h⟩ := markContending_frame s g; rw [h]
@[simp] theorem markContending_history (g : Granted) : (markContending g s).history = s.history := by
  obtain ⟨_, _, h⟩ := markContending_frame s g; rw [h]
@[simp] theorem markContending_slots (g : Granted) : (markContending g s).slots = s.slots := by
  obtain ⟨_, _, h⟩ := markContending_frame s g; rw [h]
@[simp] theorem markContending_inbox (g : Granted) : (markContending g s).inbox = s.inbox := by
  obtain ⟨_, _, h⟩ := markContending_frame s g; rw [h]
@[simp] theorem markContending_reports (g : Granted) : (markContending g s).reports = s.reports := by
  obtain ⟨_, _, h⟩ := markContending_frame s g; rw [h]
@[simp] theorem markContending_transmit (g : Granted) : (markContending g s).transmit = s.transmit := by
  obtain ⟨_, _, h⟩ := markContending_frame s g; rw [h]
@[simp] theorem markContending_port (g : Granted) : (markContending g s).port = s.port := by
  obtain ⟨_, _, h⟩ := markContending_frame s g; rw [h]

/-- What `markSending` can change. -/
theorem markSending_frame (g : Granted) :
    ∃ x0 x1, markSending g s = { s with relays := x0, outbox := x1 } := by
  unfold markSending
  repeat' (first | split | dsimp only)
  all_goals
    (repeat' apply Exists.intro)
    apply State.ext <;> first | with_reducible rfl | simp
@[simp] theorem markSending_pending (g : Granted) : (markSending g s).pending = s.pending := by
  obtain ⟨_, _, h⟩ := markSending_frame s g; rw [h]
@[simp] theorem markSending_pins (g : Granted) : (markSending g s).pins = s.pins := by
  obtain ⟨_, _, h⟩ := markSending_frame s g; rw [h]
@[simp] theorem markSending_inputs (g : Granted) : (markSending g s).inputs = s.inputs := by
  obtain ⟨_, _, h⟩ := markSending_frame s g; rw [h]
@[simp] theorem markSending_refclk (g : Granted) : (markSending g s).refclk = s.refclk := by
  obtain ⟨_, _, h⟩ := markSending_frame s g; rw [h]
@[simp] theorem markSending_drawCount (g : Granted) : (markSending g s).drawCount = s.drawCount := by
  obtain ⟨_, _, h⟩ := markSending_frame s g; rw [h]
@[simp] theorem markSending_choiceCount (g : Granted) : (markSending g s).choiceCount = s.choiceCount := by
  obtain ⟨_, _, h⟩ := markSending_frame s g; rw [h]
@[simp] theorem markSending_orderCount (g : Granted) : (markSending g s).orderCount = s.orderCount := by
  obtain ⟨_, _, h⟩ := markSending_frame s g; rw [h]
@[simp] theorem markSending_station (g : Granted) : (markSending g s).station = s.station := by
  obtain ⟨_, _, h⟩ := markSending_frame s g; rw [h]
@[simp] theorem markSending_counters (g : Granted) : (markSending g s).counters = s.counters := by
  obtain ⟨_, _, h⟩ := markSending_frame s g; rw [h]
@[simp] theorem markSending_flags (g : Granted) : (markSending g s).flags = s.flags := by
  obtain ⟨_, _, h⟩ := markSending_frame s g; rw [h]
@[simp] theorem markSending_line (g : Granted) : (markSending g s).line = s.line := by
  obtain ⟨_, _, h⟩ := markSending_frame s g; rw [h]
@[simp] theorem markSending_assembler (g : Granted) : (markSending g s).assembler = s.assembler := by
  obtain ⟨_, _, h⟩ := markSending_frame s g; rw [h]
@[simp] theorem markSending_table (g : Granted) : (markSending g s).table = s.table := by
  obtain ⟨_, _, h⟩ := markSending_frame s g; rw [h]
@[simp] theorem markSending_decodeQueue (g : Granted) : (markSending g s).decodeQueue = s.decodeQueue := by
  obtain ⟨_, _, h⟩ := markSending_frame s g; rw [h]
@[simp] theorem markSending_decoder (g : Granted) : (markSending g s).decoder = s.decoder := by
  obtain ⟨_, _, h⟩ := markSending_frame s g; rw [h]
@[simp] theorem markSending_history (g : Granted) : (markSending g s).history = s.history := by
  obtain ⟨_, _, h⟩ := markSending_frame s g; rw [h]
@[simp] theorem markSending_slots (g : Granted) : (markSending g s).slots = s.slots := by
  obtain ⟨_, _, h⟩ := markSending_frame s g; rw [h]
@[simp] theorem markSending_inbox (g : Granted) : (markSending g s).inbox = s.inbox := by
  obtain ⟨_, _, h⟩ := markSending_frame s g; rw [h]
@[simp] theorem markSending_reports (g : Granted) : (markSending g s).reports = s.reports := by
  obtain ⟨_, _, h⟩ := markSending_frame s g; rw [h]
@[simp] theorem markSending_transmit (g : Granted) : (markSending g s).transmit = s.transmit := by
  obtain ⟨_, _, h⟩ := markSending_frame s g; rw [h]
@[simp] theorem markSending_port (g : Granted) : (markSending g s).port = s.port := by
  obtain ⟨_, _, h⟩ := markSending_frame s g; rw [h]

/-- What `addDeferral` can change. -/
theorem addDeferral_frame (g : Granted) :
    ∃ x0 x1, addDeferral g s = { s with relays := x0, outbox := x1 } := by
  unfold addDeferral
  repeat' (first | split | dsimp only)
  all_goals
    (repeat' apply Exists.intro)
    apply State.ext <;> first | with_reducible rfl | simp
@[simp] theorem addDeferral_pending (g : Granted) : (addDeferral g s).pending = s.pending := by
  obtain ⟨_, _, h⟩ := addDeferral_frame s g; rw [h]
@[simp] theorem addDeferral_pins (g : Granted) : (addDeferral g s).pins = s.pins := by
  obtain ⟨_, _, h⟩ := addDeferral_frame s g; rw [h]
@[simp] theorem addDeferral_inputs (g : Granted) : (addDeferral g s).inputs = s.inputs := by
  obtain ⟨_, _, h⟩ := addDeferral_frame s g; rw [h]
@[simp] theorem addDeferral_refclk (g : Granted) : (addDeferral g s).refclk = s.refclk := by
  obtain ⟨_, _, h⟩ := addDeferral_frame s g; rw [h]
@[simp] theorem addDeferral_drawCount (g : Granted) : (addDeferral g s).drawCount = s.drawCount := by
  obtain ⟨_, _, h⟩ := addDeferral_frame s g; rw [h]
@[simp] theorem addDeferral_choiceCount (g : Granted) : (addDeferral g s).choiceCount = s.choiceCount := by
  obtain ⟨_, _, h⟩ := addDeferral_frame s g; rw [h]
@[simp] theorem addDeferral_orderCount (g : Granted) : (addDeferral g s).orderCount = s.orderCount := by
  obtain ⟨_, _, h⟩ := addDeferral_frame s g; rw [h]
@[simp] theorem addDeferral_station (g : Granted) : (addDeferral g s).station = s.station := by
  obtain ⟨_, _, h⟩ := addDeferral_frame s g; rw [h]
@[simp] theorem addDeferral_counters (g : Granted) : (addDeferral g s).counters = s.counters := by
  obtain ⟨_, _, h⟩ := addDeferral_frame s g; rw [h]
@[simp] theorem addDeferral_flags (g : Granted) : (addDeferral g s).flags = s.flags := by
  obtain ⟨_, _, h⟩ := addDeferral_frame s g; rw [h]
@[simp] theorem addDeferral_line (g : Granted) : (addDeferral g s).line = s.line := by
  obtain ⟨_, _, h⟩ := addDeferral_frame s g; rw [h]
@[simp] theorem addDeferral_assembler (g : Granted) : (addDeferral g s).assembler = s.assembler := by
  obtain ⟨_, _, h⟩ := addDeferral_frame s g; rw [h]
@[simp] theorem addDeferral_table (g : Granted) : (addDeferral g s).table = s.table := by
  obtain ⟨_, _, h⟩ := addDeferral_frame s g; rw [h]
@[simp] theorem addDeferral_decodeQueue (g : Granted) : (addDeferral g s).decodeQueue = s.decodeQueue := by
  obtain ⟨_, _, h⟩ := addDeferral_frame s g; rw [h]
@[simp] theorem addDeferral_decoder (g : Granted) : (addDeferral g s).decoder = s.decoder := by
  obtain ⟨_, _, h⟩ := addDeferral_frame s g; rw [h]
@[simp] theorem addDeferral_history (g : Granted) : (addDeferral g s).history = s.history := by
  obtain ⟨_, _, h⟩ := addDeferral_frame s g; rw [h]
@[simp] theorem addDeferral_slots (g : Granted) : (addDeferral g s).slots = s.slots := by
  obtain ⟨_, _, h⟩ := addDeferral_frame s g; rw [h]
@[simp] theorem addDeferral_inbox (g : Granted) : (addDeferral g s).inbox = s.inbox := by
  obtain ⟨_, _, h⟩ := addDeferral_frame s g; rw [h]
@[simp] theorem addDeferral_reports (g : Granted) : (addDeferral g s).reports = s.reports := by
  obtain ⟨_, _, h⟩ := addDeferral_frame s g; rw [h]
@[simp] theorem addDeferral_transmit (g : Granted) : (addDeferral g s).transmit = s.transmit := by
  obtain ⟨_, _, h⟩ := addDeferral_frame s g; rw [h]
@[simp] theorem addDeferral_port (g : Granted) : (addDeferral g s).port = s.port := by
  obtain ⟨_, _, h⟩ := addDeferral_frame s g; rw [h]

/-- What `abandon` can change. -/
theorem abandon_frame (g : Granted) :
    ∃ x0 x1 x2 x3 x4 x5 x6, abandon g s = { s with drawCount := x0, counters := x1, slots := x2, relays := x3, outbox := x4, reports := x5, transmit := x6 } := by
  unfold abandon
  repeat' (first | split | dsimp only)
  all_goals
    (repeat' apply Exists.intro)
    apply State.ext <;> first | with_reducible rfl | simp
@[simp] theorem abandon_pending (g : Granted) : (abandon g s).pending = s.pending := by
  obtain ⟨_, _, _, _, _, _, _, h⟩ := abandon_frame s g; rw [h]
@[simp] theorem abandon_pins (g : Granted) : (abandon g s).pins = s.pins := by
  obtain ⟨_, _, _, _, _, _, _, h⟩ := abandon_frame s g; rw [h]
@[simp] theorem abandon_inputs (g : Granted) : (abandon g s).inputs = s.inputs := by
  obtain ⟨_, _, _, _, _, _, _, h⟩ := abandon_frame s g; rw [h]
@[simp] theorem abandon_refclk (g : Granted) : (abandon g s).refclk = s.refclk := by
  obtain ⟨_, _, _, _, _, _, _, h⟩ := abandon_frame s g; rw [h]
@[simp] theorem abandon_choiceCount (g : Granted) : (abandon g s).choiceCount = s.choiceCount := by
  obtain ⟨_, _, _, _, _, _, _, h⟩ := abandon_frame s g; rw [h]
@[simp] theorem abandon_orderCount (g : Granted) : (abandon g s).orderCount = s.orderCount := by
  obtain ⟨_, _, _, _, _, _, _, h⟩ := abandon_frame s g; rw [h]
@[simp] theorem abandon_station (g : Granted) : (abandon g s).station = s.station := by
  obtain ⟨_, _, _, _, _, _, _, h⟩ := abandon_frame s g; rw [h]
@[simp] theorem abandon_flags (g : Granted) : (abandon g s).flags = s.flags := by
  obtain ⟨_, _, _, _, _, _, _, h⟩ := abandon_frame s g; rw [h]
@[simp] theorem abandon_line (g : Granted) : (abandon g s).line = s.line := by
  obtain ⟨_, _, _, _, _, _, _, h⟩ := abandon_frame s g; rw [h]
@[simp] theorem abandon_assembler (g : Granted) : (abandon g s).assembler = s.assembler := by
  obtain ⟨_, _, _, _, _, _, _, h⟩ := abandon_frame s g; rw [h]
@[simp] theorem abandon_table (g : Granted) : (abandon g s).table = s.table := by
  obtain ⟨_, _, _, _, _, _, _, h⟩ := abandon_frame s g; rw [h]
@[simp] theorem abandon_decodeQueue (g : Granted) : (abandon g s).decodeQueue = s.decodeQueue := by
  obtain ⟨_, _, _, _, _, _, _, h⟩ := abandon_frame s g; rw [h]
@[simp] theorem abandon_decoder (g : Granted) : (abandon g s).decoder = s.decoder := by
  obtain ⟨_, _, _, _, _, _, _, h⟩ := abandon_frame s g; rw [h]
@[simp] theorem abandon_history (g : Granted) : (abandon g s).history = s.history := by
  obtain ⟨_, _, _, _, _, _, _, h⟩ := abandon_frame s g; rw [h]
@[simp] theorem abandon_inbox (g : Granted) : (abandon g s).inbox = s.inbox := by
  obtain ⟨_, _, _, _, _, _, _, h⟩ := abandon_frame s g; rw [h]
@[simp] theorem abandon_port (g : Granted) : (abandon g s).port = s.port := by
  obtain ⟨_, _, _, _, _, _, _, h⟩ := abandon_frame s g; rw [h]

/-- What `deferGranted` can change. -/
theorem deferGranted_frame (g : Granted) :
    ∃ x0 x1 x2 x3 x4 x5 x6, deferGranted g s = { s with drawCount := x0, counters := x1, slots := x2, relays := x3, outbox := x4, reports := x5, transmit := x6 } := by
  unfold deferGranted
  repeat' (first | split | dsimp only)
  all_goals
    (repeat' apply Exists.intro)
    apply State.ext <;> first | with_reducible rfl | simp
@[simp] theorem deferGranted_pending (g : Granted) : (deferGranted g s).pending = s.pending := by
  obtain ⟨_, _, _, _, _, _, _, h⟩ := deferGranted_frame s g; rw [h]
@[simp] theorem deferGranted_pins (g : Granted) : (deferGranted g s).pins = s.pins := by
  obtain ⟨_, _, _, _, _, _, _, h⟩ := deferGranted_frame s g; rw [h]
@[simp] theorem deferGranted_inputs (g : Granted) : (deferGranted g s).inputs = s.inputs := by
  obtain ⟨_, _, _, _, _, _, _, h⟩ := deferGranted_frame s g; rw [h]
@[simp] theorem deferGranted_refclk (g : Granted) : (deferGranted g s).refclk = s.refclk := by
  obtain ⟨_, _, _, _, _, _, _, h⟩ := deferGranted_frame s g; rw [h]
@[simp] theorem deferGranted_choiceCount (g : Granted) : (deferGranted g s).choiceCount = s.choiceCount := by
  obtain ⟨_, _, _, _, _, _, _, h⟩ := deferGranted_frame s g; rw [h]
@[simp] theorem deferGranted_orderCount (g : Granted) : (deferGranted g s).orderCount = s.orderCount := by
  obtain ⟨_, _, _, _, _, _, _, h⟩ := deferGranted_frame s g; rw [h]
@[simp] theorem deferGranted_station (g : Granted) : (deferGranted g s).station = s.station := by
  obtain ⟨_, _, _, _, _, _, _, h⟩ := deferGranted_frame s g; rw [h]
@[simp] theorem deferGranted_flags (g : Granted) : (deferGranted g s).flags = s.flags := by
  obtain ⟨_, _, _, _, _, _, _, h⟩ := deferGranted_frame s g; rw [h]
@[simp] theorem deferGranted_line (g : Granted) : (deferGranted g s).line = s.line := by
  obtain ⟨_, _, _, _, _, _, _, h⟩ := deferGranted_frame s g; rw [h]
@[simp] theorem deferGranted_assembler (g : Granted) : (deferGranted g s).assembler = s.assembler := by
  obtain ⟨_, _, _, _, _, _, _, h⟩ := deferGranted_frame s g; rw [h]
@[simp] theorem deferGranted_table (g : Granted) : (deferGranted g s).table = s.table := by
  obtain ⟨_, _, _, _, _, _, _, h⟩ := deferGranted_frame s g; rw [h]
@[simp] theorem deferGranted_decodeQueue (g : Granted) : (deferGranted g s).decodeQueue = s.decodeQueue := by
  obtain ⟨_, _, _, _, _, _, _, h⟩ := deferGranted_frame s g; rw [h]
@[simp] theorem deferGranted_decoder (g : Granted) : (deferGranted g s).decoder = s.decoder := by
  obtain ⟨_, _, _, _, _, _, _, h⟩ := deferGranted_frame s g; rw [h]
@[simp] theorem deferGranted_history (g : Granted) : (deferGranted g s).history = s.history := by
  obtain ⟨_, _, _, _, _, _, _, h⟩ := deferGranted_frame s g; rw [h]
@[simp] theorem deferGranted_inbox (g : Granted) : (deferGranted g s).inbox = s.inbox := by
  obtain ⟨_, _, _, _, _, _, _, h⟩ := deferGranted_frame s g; rw [h]
@[simp] theorem deferGranted_port (g : Granted) : (deferGranted g s).port = s.port := by
  obtain ⟨_, _, _, _, _, _, _, h⟩ := deferGranted_frame s g; rw [h]

/-- What `reportMedium` can change. -/
theorem reportMedium_frame (m : Medium) :
    ∃ x0 x1 x2 x3 x4 x5 x6, reportMedium m s = { s with drawCount := x0, counters := x1, slots := x2, relays := x3, outbox := x4, reports := x5, transmit := x6 } := by
  unfold reportMedium
  repeat' (first | split | dsimp only)
  all_goals
    (repeat' apply Exists.intro)
    apply State.ext <;> first | with_reducible rfl | simp
@[simp] theorem reportMedium_pending (m : Medium) : (reportMedium m s).pending = s.pending := by
  obtain ⟨_, _, _, _, _, _, _, h⟩ := reportMedium_frame s m; rw [h]
@[simp] theorem reportMedium_pins (m : Medium) : (reportMedium m s).pins = s.pins := by
  obtain ⟨_, _, _, _, _, _, _, h⟩ := reportMedium_frame s m; rw [h]
@[simp] theorem reportMedium_inputs (m : Medium) : (reportMedium m s).inputs = s.inputs := by
  obtain ⟨_, _, _, _, _, _, _, h⟩ := reportMedium_frame s m; rw [h]
@[simp] theorem reportMedium_refclk (m : Medium) : (reportMedium m s).refclk = s.refclk := by
  obtain ⟨_, _, _, _, _, _, _, h⟩ := reportMedium_frame s m; rw [h]
@[simp] theorem reportMedium_choiceCount (m : Medium) : (reportMedium m s).choiceCount = s.choiceCount := by
  obtain ⟨_, _, _, _, _, _, _, h⟩ := reportMedium_frame s m; rw [h]
@[simp] theorem reportMedium_orderCount (m : Medium) : (reportMedium m s).orderCount = s.orderCount := by
  obtain ⟨_, _, _, _, _, _, _, h⟩ := reportMedium_frame s m; rw [h]
@[simp] theorem reportMedium_station (m : Medium) : (reportMedium m s).station = s.station := by
  obtain ⟨_, _, _, _, _, _, _, h⟩ := reportMedium_frame s m; rw [h]
@[simp] theorem reportMedium_flags (m : Medium) : (reportMedium m s).flags = s.flags := by
  obtain ⟨_, _, _, _, _, _, _, h⟩ := reportMedium_frame s m; rw [h]
@[simp] theorem reportMedium_line (m : Medium) : (reportMedium m s).line = s.line := by
  obtain ⟨_, _, _, _, _, _, _, h⟩ := reportMedium_frame s m; rw [h]
@[simp] theorem reportMedium_assembler (m : Medium) : (reportMedium m s).assembler = s.assembler := by
  obtain ⟨_, _, _, _, _, _, _, h⟩ := reportMedium_frame s m; rw [h]
@[simp] theorem reportMedium_table (m : Medium) : (reportMedium m s).table = s.table := by
  obtain ⟨_, _, _, _, _, _, _, h⟩ := reportMedium_frame s m; rw [h]
@[simp] theorem reportMedium_decodeQueue (m : Medium) : (reportMedium m s).decodeQueue = s.decodeQueue := by
  obtain ⟨_, _, _, _, _, _, _, h⟩ := reportMedium_frame s m; rw [h]
@[simp] theorem reportMedium_decoder (m : Medium) : (reportMedium m s).decoder = s.decoder := by
  obtain ⟨_, _, _, _, _, _, _, h⟩ := reportMedium_frame s m; rw [h]
@[simp] theorem reportMedium_history (m : Medium) : (reportMedium m s).history = s.history := by
  obtain ⟨_, _, _, _, _, _, _, h⟩ := reportMedium_frame s m; rw [h]
@[simp] theorem reportMedium_inbox (m : Medium) : (reportMedium m s).inbox = s.inbox := by
  obtain ⟨_, _, _, _, _, _, _, h⟩ := reportMedium_frame s m; rw [h]
@[simp] theorem reportMedium_port (m : Medium) : (reportMedium m s).port = s.port := by
  obtain ⟨_, _, _, _, _, _, _, h⟩ := reportMedium_frame s m; rw [h]

/-- What `drawBackoff` can change. -/
theorem drawBackoff_frame (g : Granted) :
    ∃ x0 x1, drawBackoff g s = { s with drawCount := x0, transmit := x1 } := by
  unfold drawBackoff
  repeat' (first | split | dsimp only)
  all_goals
    (repeat' apply Exists.intro)
    apply State.ext <;> first | with_reducible rfl | simp
@[simp] theorem drawBackoff_pending (g : Granted) : (drawBackoff g s).pending = s.pending := by
  obtain ⟨_, _, h⟩ := drawBackoff_frame s g; rw [h]
@[simp] theorem drawBackoff_pins (g : Granted) : (drawBackoff g s).pins = s.pins := by
  obtain ⟨_, _, h⟩ := drawBackoff_frame s g; rw [h]
@[simp] theorem drawBackoff_inputs (g : Granted) : (drawBackoff g s).inputs = s.inputs := by
  obtain ⟨_, _, h⟩ := drawBackoff_frame s g; rw [h]
@[simp] theorem drawBackoff_refclk (g : Granted) : (drawBackoff g s).refclk = s.refclk := by
  obtain ⟨_, _, h⟩ := drawBackoff_frame s g; rw [h]
@[simp] theorem drawBackoff_choiceCount (g : Granted) : (drawBackoff g s).choiceCount = s.choiceCount := by
  obtain ⟨_, _, h⟩ := drawBackoff_frame s g; rw [h]
@[simp] theorem drawBackoff_orderCount (g : Granted) : (drawBackoff g s).orderCount = s.orderCount := by
  obtain ⟨_, _, h⟩ := drawBackoff_frame s g; rw [h]
@[simp] theorem drawBackoff_station (g : Granted) : (drawBackoff g s).station = s.station := by
  obtain ⟨_, _, h⟩ := drawBackoff_frame s g; rw [h]
@[simp] theorem drawBackoff_counters (g : Granted) : (drawBackoff g s).counters = s.counters := by
  obtain ⟨_, _, h⟩ := drawBackoff_frame s g; rw [h]
@[simp] theorem drawBackoff_flags (g : Granted) : (drawBackoff g s).flags = s.flags := by
  obtain ⟨_, _, h⟩ := drawBackoff_frame s g; rw [h]
@[simp] theorem drawBackoff_line (g : Granted) : (drawBackoff g s).line = s.line := by
  obtain ⟨_, _, h⟩ := drawBackoff_frame s g; rw [h]
@[simp] theorem drawBackoff_assembler (g : Granted) : (drawBackoff g s).assembler = s.assembler := by
  obtain ⟨_, _, h⟩ := drawBackoff_frame s g; rw [h]
@[simp] theorem drawBackoff_table (g : Granted) : (drawBackoff g s).table = s.table := by
  obtain ⟨_, _, h⟩ := drawBackoff_frame s g; rw [h]
@[simp] theorem drawBackoff_decodeQueue (g : Granted) : (drawBackoff g s).decodeQueue = s.decodeQueue := by
  obtain ⟨_, _, h⟩ := drawBackoff_frame s g; rw [h]
@[simp] theorem drawBackoff_decoder (g : Granted) : (drawBackoff g s).decoder = s.decoder := by
  obtain ⟨_, _, h⟩ := drawBackoff_frame s g; rw [h]
@[simp] theorem drawBackoff_history (g : Granted) : (drawBackoff g s).history = s.history := by
  obtain ⟨_, _, h⟩ := drawBackoff_frame s g; rw [h]
@[simp] theorem drawBackoff_slots (g : Granted) : (drawBackoff g s).slots = s.slots := by
  obtain ⟨_, _, h⟩ := drawBackoff_frame s g; rw [h]
@[simp] theorem drawBackoff_inbox (g : Granted) : (drawBackoff g s).inbox = s.inbox := by
  obtain ⟨_, _, h⟩ := drawBackoff_frame s g; rw [h]
@[simp] theorem drawBackoff_relays (g : Granted) : (drawBackoff g s).relays = s.relays := by
  obtain ⟨_, _, h⟩ := drawBackoff_frame s g; rw [h]
@[simp] theorem drawBackoff_outbox (g : Granted) : (drawBackoff g s).outbox = s.outbox := by
  obtain ⟨_, _, h⟩ := drawBackoff_frame s g; rw [h]
@[simp] theorem drawBackoff_reports (g : Granted) : (drawBackoff g s).reports = s.reports := by
  obtain ⟨_, _, h⟩ := drawBackoff_frame s g; rw [h]
@[simp] theorem drawBackoff_port (g : Granted) : (drawBackoff g s).port = s.port := by
  obtain ⟨_, _, h⟩ := drawBackoff_frame s g; rw [h]

/-- What `grantItem` can change. -/
theorem grantItem_frame (g : Granted) :
    ∃ x0 x1 x2 x3 x4 x5 x6, grantItem g s = { s with drawCount := x0, counters := x1, slots := x2, relays := x3, outbox := x4, reports := x5, transmit := x6 } := by
  unfold grantItem
  repeat' (first | split | dsimp only)
  all_goals
    (repeat' apply Exists.intro)
    apply State.ext <;> first | with_reducible rfl | simp
@[simp] theorem grantItem_pending (g : Granted) : (grantItem g s).pending = s.pending := by
  obtain ⟨_, _, _, _, _, _, _, h⟩ := grantItem_frame s g; rw [h]
@[simp] theorem grantItem_pins (g : Granted) : (grantItem g s).pins = s.pins := by
  obtain ⟨_, _, _, _, _, _, _, h⟩ := grantItem_frame s g; rw [h]
@[simp] theorem grantItem_inputs (g : Granted) : (grantItem g s).inputs = s.inputs := by
  obtain ⟨_, _, _, _, _, _, _, h⟩ := grantItem_frame s g; rw [h]
@[simp] theorem grantItem_refclk (g : Granted) : (grantItem g s).refclk = s.refclk := by
  obtain ⟨_, _, _, _, _, _, _, h⟩ := grantItem_frame s g; rw [h]
@[simp] theorem grantItem_choiceCount (g : Granted) : (grantItem g s).choiceCount = s.choiceCount := by
  obtain ⟨_, _, _, _, _, _, _, h⟩ := grantItem_frame s g; rw [h]
@[simp] theorem grantItem_orderCount (g : Granted) : (grantItem g s).orderCount = s.orderCount := by
  obtain ⟨_, _, _, _, _, _, _, h⟩ := grantItem_frame s g; rw [h]
@[simp] theorem grantItem_station (g : Granted) : (grantItem g s).station = s.station := by
  obtain ⟨_, _, _, _, _, _, _, h⟩ := grantItem_frame s g; rw [h]
@[simp] theorem grantItem_flags (g : Granted) : (grantItem g s).flags = s.flags := by
  obtain ⟨_, _, _, _, _, _, _, h⟩ := grantItem_frame s g; rw [h]
@[simp] theorem grantItem_line (g : Granted) : (grantItem g s).line = s.line := by
  obtain ⟨_, _, _, _, _, _, _, h⟩ := grantItem_frame s g; rw [h]
@[simp] theorem grantItem_assembler (g : Granted) : (grantItem g s).assembler = s.assembler := by
  obtain ⟨_, _, _, _, _, _, _, h⟩ := grantItem_frame s g; rw [h]
@[simp] theorem grantItem_table (g : Granted) : (grantItem g s).table = s.table := by
  obtain ⟨_, _, _, _, _, _, _, h⟩ := grantItem_frame s g; rw [h]
@[simp] theorem grantItem_decodeQueue (g : Granted) : (grantItem g s).decodeQueue = s.decodeQueue := by
  obtain ⟨_, _, _, _, _, _, _, h⟩ := grantItem_frame s g; rw [h]
@[simp] theorem grantItem_decoder (g : Granted) : (grantItem g s).decoder = s.decoder := by
  obtain ⟨_, _, _, _, _, _, _, h⟩ := grantItem_frame s g; rw [h]
@[simp] theorem grantItem_history (g : Granted) : (grantItem g s).history = s.history := by
  obtain ⟨_, _, _, _, _, _, _, h⟩ := grantItem_frame s g; rw [h]
@[simp] theorem grantItem_inbox (g : Granted) : (grantItem g s).inbox = s.inbox := by
  obtain ⟨_, _, _, _, _, _, _, h⟩ := grantItem_frame s g; rw [h]
@[simp] theorem grantItem_port (g : Granted) : (grantItem g s).port = s.port := by
  obtain ⟨_, _, _, _, _, _, _, h⟩ := grantItem_frame s g; rw [h]

/-- What `grant` can change. -/
theorem grant_frame :
    ∃ x0 x1 x2 x3 x4 x5 x6, grant s = { s with drawCount := x0, counters := x1, slots := x2, relays := x3, outbox := x4, reports := x5, transmit := x6 } := by
  unfold grant
  repeat' (first | split | dsimp only)
  all_goals
    (repeat' apply Exists.intro)
    apply State.ext <;> first | with_reducible rfl | simp
@[simp] theorem grant_pending : (grant s).pending = s.pending := by
  obtain ⟨_, _, _, _, _, _, _, h⟩ := grant_frame s; rw [h]
@[simp] theorem grant_pins : (grant s).pins = s.pins := by
  obtain ⟨_, _, _, _, _, _, _, h⟩ := grant_frame s; rw [h]
@[simp] theorem grant_inputs : (grant s).inputs = s.inputs := by
  obtain ⟨_, _, _, _, _, _, _, h⟩ := grant_frame s; rw [h]
@[simp] theorem grant_refclk : (grant s).refclk = s.refclk := by
  obtain ⟨_, _, _, _, _, _, _, h⟩ := grant_frame s; rw [h]
@[simp] theorem grant_choiceCount : (grant s).choiceCount = s.choiceCount := by
  obtain ⟨_, _, _, _, _, _, _, h⟩ := grant_frame s; rw [h]
@[simp] theorem grant_orderCount : (grant s).orderCount = s.orderCount := by
  obtain ⟨_, _, _, _, _, _, _, h⟩ := grant_frame s; rw [h]
@[simp] theorem grant_station : (grant s).station = s.station := by
  obtain ⟨_, _, _, _, _, _, _, h⟩ := grant_frame s; rw [h]
@[simp] theorem grant_flags : (grant s).flags = s.flags := by
  obtain ⟨_, _, _, _, _, _, _, h⟩ := grant_frame s; rw [h]
@[simp] theorem grant_line : (grant s).line = s.line := by
  obtain ⟨_, _, _, _, _, _, _, h⟩ := grant_frame s; rw [h]
@[simp] theorem grant_assembler : (grant s).assembler = s.assembler := by
  obtain ⟨_, _, _, _, _, _, _, h⟩ := grant_frame s; rw [h]
@[simp] theorem grant_table : (grant s).table = s.table := by
  obtain ⟨_, _, _, _, _, _, _, h⟩ := grant_frame s; rw [h]
@[simp] theorem grant_decodeQueue : (grant s).decodeQueue = s.decodeQueue := by
  obtain ⟨_, _, _, _, _, _, _, h⟩ := grant_frame s; rw [h]
@[simp] theorem grant_decoder : (grant s).decoder = s.decoder := by
  obtain ⟨_, _, _, _, _, _, _, h⟩ := grant_frame s; rw [h]
@[simp] theorem grant_history : (grant s).history = s.history := by
  obtain ⟨_, _, _, _, _, _, _, h⟩ := grant_frame s; rw [h]
@[simp] theorem grant_inbox : (grant s).inbox = s.inbox := by
  obtain ⟨_, _, _, _, _, _, _, h⟩ := grant_frame s; rw [h]
@[simp] theorem grant_port : (grant s).port = s.port := by
  obtain ⟨_, _, _, _, _, _, _, h⟩ := grant_frame s; rw [h]

/-- What `slotEnd` can change. -/
theorem slotEnd_frame :
    ∃ x0 x1 x2 x3, slotEnd s = { s with refclk := x0, station := x1, line := x2, transmit := x3 } := by
  unfold slotEnd
  repeat' (first | split | dsimp only)
  all_goals
    (repeat' apply Exists.intro)
    apply State.ext <;> first | with_reducible rfl | simp
@[simp] theorem slotEnd_pending : (slotEnd s).pending = s.pending := by
  obtain ⟨_, _, _, _, h⟩ := slotEnd_frame s; rw [h]
@[simp] theorem slotEnd_pins : (slotEnd s).pins = s.pins := by
  obtain ⟨_, _, _, _, h⟩ := slotEnd_frame s; rw [h]
@[simp] theorem slotEnd_inputs : (slotEnd s).inputs = s.inputs := by
  obtain ⟨_, _, _, _, h⟩ := slotEnd_frame s; rw [h]
@[simp] theorem slotEnd_drawCount : (slotEnd s).drawCount = s.drawCount := by
  obtain ⟨_, _, _, _, h⟩ := slotEnd_frame s; rw [h]
@[simp] theorem slotEnd_choiceCount : (slotEnd s).choiceCount = s.choiceCount := by
  obtain ⟨_, _, _, _, h⟩ := slotEnd_frame s; rw [h]
@[simp] theorem slotEnd_orderCount : (slotEnd s).orderCount = s.orderCount := by
  obtain ⟨_, _, _, _, h⟩ := slotEnd_frame s; rw [h]
@[simp] theorem slotEnd_counters : (slotEnd s).counters = s.counters := by
  obtain ⟨_, _, _, _, h⟩ := slotEnd_frame s; rw [h]
@[simp] theorem slotEnd_flags : (slotEnd s).flags = s.flags := by
  obtain ⟨_, _, _, _, h⟩ := slotEnd_frame s; rw [h]
@[simp] theorem slotEnd_assembler : (slotEnd s).assembler = s.assembler := by
  obtain ⟨_, _, _, _, h⟩ := slotEnd_frame s; rw [h]
@[simp] theorem slotEnd_table : (slotEnd s).table = s.table := by
  obtain ⟨_, _, _, _, h⟩ := slotEnd_frame s; rw [h]
@[simp] theorem slotEnd_decodeQueue : (slotEnd s).decodeQueue = s.decodeQueue := by
  obtain ⟨_, _, _, _, h⟩ := slotEnd_frame s; rw [h]
@[simp] theorem slotEnd_decoder : (slotEnd s).decoder = s.decoder := by
  obtain ⟨_, _, _, _, h⟩ := slotEnd_frame s; rw [h]
@[simp] theorem slotEnd_history : (slotEnd s).history = s.history := by
  obtain ⟨_, _, _, _, h⟩ := slotEnd_frame s; rw [h]
@[simp] theorem slotEnd_slots : (slotEnd s).slots = s.slots := by
  obtain ⟨_, _, _, _, h⟩ := slotEnd_frame s; rw [h]
@[simp] theorem slotEnd_inbox : (slotEnd s).inbox = s.inbox := by
  obtain ⟨_, _, _, _, h⟩ := slotEnd_frame s; rw [h]
@[simp] theorem slotEnd_relays : (slotEnd s).relays = s.relays := by
  obtain ⟨_, _, _, _, h⟩ := slotEnd_frame s; rw [h]
@[simp] theorem slotEnd_outbox : (slotEnd s).outbox = s.outbox := by
  obtain ⟨_, _, _, _, h⟩ := slotEnd_frame s; rw [h]
@[simp] theorem slotEnd_reports : (slotEnd s).reports = s.reports := by
  obtain ⟨_, _, _, _, h⟩ := slotEnd_frame s; rw [h]
@[simp] theorem slotEnd_port : (slotEnd s).port = s.port := by
  obtain ⟨_, _, _, _, h⟩ := slotEnd_frame s; rw [h]

/-- What `handCopyOver` can change. -/
theorem handCopyOver_frame (g : Granted) (k : Key) (i : Identity) (h sl : Nat) :
    ∃ x0 x1 x2, handCopyOver g k i h sl s = { s with relays := x0, outbox := x1, transmit := x2 } := by
  unfold handCopyOver
  repeat' (first | split | dsimp only)
  all_goals
    (repeat' apply Exists.intro)
    apply State.ext <;> first | with_reducible rfl | simp
@[simp] theorem handCopyOver_pending (g : Granted) (k : Key) (i : Identity) (h sl : Nat) : (handCopyOver g k i h sl s).pending = s.pending := by
  obtain ⟨_, _, _, h⟩ := handCopyOver_frame s g k i h sl; rw [h]
@[simp] theorem handCopyOver_pins (g : Granted) (k : Key) (i : Identity) (h sl : Nat) : (handCopyOver g k i h sl s).pins = s.pins := by
  obtain ⟨_, _, _, h⟩ := handCopyOver_frame s g k i h sl; rw [h]
@[simp] theorem handCopyOver_inputs (g : Granted) (k : Key) (i : Identity) (h sl : Nat) : (handCopyOver g k i h sl s).inputs = s.inputs := by
  obtain ⟨_, _, _, h⟩ := handCopyOver_frame s g k i h sl; rw [h]
@[simp] theorem handCopyOver_refclk (g : Granted) (k : Key) (i : Identity) (h sl : Nat) : (handCopyOver g k i h sl s).refclk = s.refclk := by
  obtain ⟨_, _, _, h⟩ := handCopyOver_frame s g k i h sl; rw [h]
@[simp] theorem handCopyOver_drawCount (g : Granted) (k : Key) (i : Identity) (h sl : Nat) : (handCopyOver g k i h sl s).drawCount = s.drawCount := by
  obtain ⟨_, _, _, h⟩ := handCopyOver_frame s g k i h sl; rw [h]
@[simp] theorem handCopyOver_choiceCount (g : Granted) (k : Key) (i : Identity) (h sl : Nat) : (handCopyOver g k i h sl s).choiceCount = s.choiceCount := by
  obtain ⟨_, _, _, h⟩ := handCopyOver_frame s g k i h sl; rw [h]
@[simp] theorem handCopyOver_orderCount (g : Granted) (k : Key) (i : Identity) (h sl : Nat) : (handCopyOver g k i h sl s).orderCount = s.orderCount := by
  obtain ⟨_, _, _, h⟩ := handCopyOver_frame s g k i h sl; rw [h]
@[simp] theorem handCopyOver_station (g : Granted) (k : Key) (i : Identity) (h sl : Nat) : (handCopyOver g k i h sl s).station = s.station := by
  obtain ⟨_, _, _, h⟩ := handCopyOver_frame s g k i h sl; rw [h]
@[simp] theorem handCopyOver_counters (g : Granted) (k : Key) (i : Identity) (h sl : Nat) : (handCopyOver g k i h sl s).counters = s.counters := by
  obtain ⟨_, _, _, h⟩ := handCopyOver_frame s g k i h sl; rw [h]
@[simp] theorem handCopyOver_flags (g : Granted) (k : Key) (i : Identity) (h sl : Nat) : (handCopyOver g k i h sl s).flags = s.flags := by
  obtain ⟨_, _, _, h⟩ := handCopyOver_frame s g k i h sl; rw [h]
@[simp] theorem handCopyOver_line (g : Granted) (k : Key) (i : Identity) (h sl : Nat) : (handCopyOver g k i h sl s).line = s.line := by
  obtain ⟨_, _, _, h⟩ := handCopyOver_frame s g k i h sl; rw [h]
@[simp] theorem handCopyOver_assembler (g : Granted) (k : Key) (i : Identity) (h sl : Nat) : (handCopyOver g k i h sl s).assembler = s.assembler := by
  obtain ⟨_, _, _, h⟩ := handCopyOver_frame s g k i h sl; rw [h]
@[simp] theorem handCopyOver_table (g : Granted) (k : Key) (i : Identity) (h sl : Nat) : (handCopyOver g k i h sl s).table = s.table := by
  obtain ⟨_, _, _, h⟩ := handCopyOver_frame s g k i h sl; rw [h]
@[simp] theorem handCopyOver_decodeQueue (g : Granted) (k : Key) (i : Identity) (h sl : Nat) : (handCopyOver g k i h sl s).decodeQueue = s.decodeQueue := by
  obtain ⟨_, _, _, h⟩ := handCopyOver_frame s g k i h sl; rw [h]
@[simp] theorem handCopyOver_decoder (g : Granted) (k : Key) (i : Identity) (h sl : Nat) : (handCopyOver g k i h sl s).decoder = s.decoder := by
  obtain ⟨_, _, _, h⟩ := handCopyOver_frame s g k i h sl; rw [h]
@[simp] theorem handCopyOver_history (g : Granted) (k : Key) (i : Identity) (h sl : Nat) : (handCopyOver g k i h sl s).history = s.history := by
  obtain ⟨_, _, _, h⟩ := handCopyOver_frame s g k i h sl; rw [h]
@[simp] theorem handCopyOver_slots (g : Granted) (k : Key) (i : Identity) (h sl : Nat) : (handCopyOver g k i h sl s).slots = s.slots := by
  obtain ⟨_, _, _, h⟩ := handCopyOver_frame s g k i h sl; rw [h]
@[simp] theorem handCopyOver_inbox (g : Granted) (k : Key) (i : Identity) (h sl : Nat) : (handCopyOver g k i h sl s).inbox = s.inbox := by
  obtain ⟨_, _, _, h⟩ := handCopyOver_frame s g k i h sl; rw [h]
@[simp] theorem handCopyOver_reports (g : Granted) (k : Key) (i : Identity) (h sl : Nat) : (handCopyOver g k i h sl s).reports = s.reports := by
  obtain ⟨_, _, _, h⟩ := handCopyOver_frame s g k i h sl; rw [h]
@[simp] theorem handCopyOver_port (g : Granted) (k : Key) (i : Identity) (h sl : Nat) : (handCopyOver g k i h sl s).port = s.port := by
  obtain ⟨_, _, _, h⟩ := handCopyOver_frame s g k i h sl; rw [h]

/-- What `backoffCompletion` can change. -/
theorem backoffCompletion_frame :
    ∃ x0 x1 x2 x3 x4, backoffCompletion s = { s with counters := x0, slots := x1, relays := x2, outbox := x3, transmit := x4 } := by
  unfold backoffCompletion
  repeat' (first | split | dsimp only)
  all_goals
    (repeat' apply Exists.intro)
    apply State.ext <;> first | with_reducible rfl | simp
@[simp] theorem backoffCompletion_pending : (backoffCompletion s).pending = s.pending := by
  obtain ⟨_, _, _, _, _, h⟩ := backoffCompletion_frame s; rw [h]
@[simp] theorem backoffCompletion_pins : (backoffCompletion s).pins = s.pins := by
  obtain ⟨_, _, _, _, _, h⟩ := backoffCompletion_frame s; rw [h]
@[simp] theorem backoffCompletion_inputs : (backoffCompletion s).inputs = s.inputs := by
  obtain ⟨_, _, _, _, _, h⟩ := backoffCompletion_frame s; rw [h]
@[simp] theorem backoffCompletion_refclk : (backoffCompletion s).refclk = s.refclk := by
  obtain ⟨_, _, _, _, _, h⟩ := backoffCompletion_frame s; rw [h]
@[simp] theorem backoffCompletion_drawCount : (backoffCompletion s).drawCount = s.drawCount := by
  obtain ⟨_, _, _, _, _, h⟩ := backoffCompletion_frame s; rw [h]
@[simp] theorem backoffCompletion_choiceCount : (backoffCompletion s).choiceCount = s.choiceCount := by
  obtain ⟨_, _, _, _, _, h⟩ := backoffCompletion_frame s; rw [h]
@[simp] theorem backoffCompletion_orderCount : (backoffCompletion s).orderCount = s.orderCount := by
  obtain ⟨_, _, _, _, _, h⟩ := backoffCompletion_frame s; rw [h]
@[simp] theorem backoffCompletion_station : (backoffCompletion s).station = s.station := by
  obtain ⟨_, _, _, _, _, h⟩ := backoffCompletion_frame s; rw [h]
@[simp] theorem backoffCompletion_flags : (backoffCompletion s).flags = s.flags := by
  obtain ⟨_, _, _, _, _, h⟩ := backoffCompletion_frame s; rw [h]
@[simp] theorem backoffCompletion_line : (backoffCompletion s).line = s.line := by
  obtain ⟨_, _, _, _, _, h⟩ := backoffCompletion_frame s; rw [h]
@[simp] theorem backoffCompletion_assembler : (backoffCompletion s).assembler = s.assembler := by
  obtain ⟨_, _, _, _, _, h⟩ := backoffCompletion_frame s; rw [h]
@[simp] theorem backoffCompletion_table : (backoffCompletion s).table = s.table := by
  obtain ⟨_, _, _, _, _, h⟩ := backoffCompletion_frame s; rw [h]
@[simp] theorem backoffCompletion_decodeQueue : (backoffCompletion s).decodeQueue = s.decodeQueue := by
  obtain ⟨_, _, _, _, _, h⟩ := backoffCompletion_frame s; rw [h]
@[simp] theorem backoffCompletion_decoder : (backoffCompletion s).decoder = s.decoder := by
  obtain ⟨_, _, _, _, _, h⟩ := backoffCompletion_frame s; rw [h]
@[simp] theorem backoffCompletion_history : (backoffCompletion s).history = s.history := by
  obtain ⟨_, _, _, _, _, h⟩ := backoffCompletion_frame s; rw [h]
@[simp] theorem backoffCompletion_inbox : (backoffCompletion s).inbox = s.inbox := by
  obtain ⟨_, _, _, _, _, h⟩ := backoffCompletion_frame s; rw [h]
@[simp] theorem backoffCompletion_reports : (backoffCompletion s).reports = s.reports := by
  obtain ⟨_, _, _, _, _, h⟩ := backoffCompletion_frame s; rw [h]
@[simp] theorem backoffCompletion_port : (backoffCompletion s).port = s.port := by
  obtain ⟨_, _, _, _, _, h⟩ := backoffCompletion_frame s; rw [h]

/-- What `handBackSent` can change. -/
theorem handBackSent_frame (g : Granted) :
    ∃ x0 x1 x2 x3 x4 x5 x6, handBackSent g s = { s with drawCount := x0, counters := x1, slots := x2, relays := x3, outbox := x4, reports := x5, transmit := x6 } := by
  unfold handBackSent
  repeat' (first | split | dsimp only)
  all_goals
    (repeat' apply Exists.intro)
    apply State.ext <;> first | with_reducible rfl | simp
@[simp] theorem handBackSent_pending (g : Granted) : (handBackSent g s).pending = s.pending := by
  obtain ⟨_, _, _, _, _, _, _, h⟩ := handBackSent_frame s g; rw [h]
@[simp] theorem handBackSent_pins (g : Granted) : (handBackSent g s).pins = s.pins := by
  obtain ⟨_, _, _, _, _, _, _, h⟩ := handBackSent_frame s g; rw [h]
@[simp] theorem handBackSent_inputs (g : Granted) : (handBackSent g s).inputs = s.inputs := by
  obtain ⟨_, _, _, _, _, _, _, h⟩ := handBackSent_frame s g; rw [h]
@[simp] theorem handBackSent_refclk (g : Granted) : (handBackSent g s).refclk = s.refclk := by
  obtain ⟨_, _, _, _, _, _, _, h⟩ := handBackSent_frame s g; rw [h]
@[simp] theorem handBackSent_choiceCount (g : Granted) : (handBackSent g s).choiceCount = s.choiceCount := by
  obtain ⟨_, _, _, _, _, _, _, h⟩ := handBackSent_frame s g; rw [h]
@[simp] theorem handBackSent_orderCount (g : Granted) : (handBackSent g s).orderCount = s.orderCount := by
  obtain ⟨_, _, _, _, _, _, _, h⟩ := handBackSent_frame s g; rw [h]
@[simp] theorem handBackSent_station (g : Granted) : (handBackSent g s).station = s.station := by
  obtain ⟨_, _, _, _, _, _, _, h⟩ := handBackSent_frame s g; rw [h]
@[simp] theorem handBackSent_flags (g : Granted) : (handBackSent g s).flags = s.flags := by
  obtain ⟨_, _, _, _, _, _, _, h⟩ := handBackSent_frame s g; rw [h]
@[simp] theorem handBackSent_line (g : Granted) : (handBackSent g s).line = s.line := by
  obtain ⟨_, _, _, _, _, _, _, h⟩ := handBackSent_frame s g; rw [h]
@[simp] theorem handBackSent_assembler (g : Granted) : (handBackSent g s).assembler = s.assembler := by
  obtain ⟨_, _, _, _, _, _, _, h⟩ := handBackSent_frame s g; rw [h]
@[simp] theorem handBackSent_table (g : Granted) : (handBackSent g s).table = s.table := by
  obtain ⟨_, _, _, _, _, _, _, h⟩ := handBackSent_frame s g; rw [h]
@[simp] theorem handBackSent_decodeQueue (g : Granted) : (handBackSent g s).decodeQueue = s.decodeQueue := by
  obtain ⟨_, _, _, _, _, _, _, h⟩ := handBackSent_frame s g; rw [h]
@[simp] theorem handBackSent_decoder (g : Granted) : (handBackSent g s).decoder = s.decoder := by
  obtain ⟨_, _, _, _, _, _, _, h⟩ := handBackSent_frame s g; rw [h]
@[simp] theorem handBackSent_history (g : Granted) : (handBackSent g s).history = s.history := by
  obtain ⟨_, _, _, _, _, _, _, h⟩ := handBackSent_frame s g; rw [h]
@[simp] theorem handBackSent_inbox (g : Granted) : (handBackSent g s).inbox = s.inbox := by
  obtain ⟨_, _, _, _, _, _, _, h⟩ := handBackSent_frame s g; rw [h]
@[simp] theorem handBackSent_port (g : Granted) : (handBackSent g s).port = s.port := by
  obtain ⟨_, _, _, _, _, _, _, h⟩ := handBackSent_frame s g; rw [h]

/-- What `actOn` can change. -/
theorem actOn_frame (v : Verdict) (r : CopyRecord) :
    ∃ x0 x1 x2 x3 x4 x5, actOn v r s = { s with counters := x0, flags := x1, table := x2, decodeQueue := x3, relays := x4, outbox := x5 } := by
  unfold actOn
  repeat' (first | split | dsimp only)
  all_goals
    (repeat' apply Exists.intro)
    apply State.ext <;> first | with_reducible rfl | simp
@[simp] theorem actOn_pending (v : Verdict) (r : CopyRecord) : (actOn v r s).pending = s.pending := by
  obtain ⟨_, _, _, _, _, _, h⟩ := actOn_frame s v r; rw [h]
@[simp] theorem actOn_pins (v : Verdict) (r : CopyRecord) : (actOn v r s).pins = s.pins := by
  obtain ⟨_, _, _, _, _, _, h⟩ := actOn_frame s v r; rw [h]
@[simp] theorem actOn_inputs (v : Verdict) (r : CopyRecord) : (actOn v r s).inputs = s.inputs := by
  obtain ⟨_, _, _, _, _, _, h⟩ := actOn_frame s v r; rw [h]
@[simp] theorem actOn_refclk (v : Verdict) (r : CopyRecord) : (actOn v r s).refclk = s.refclk := by
  obtain ⟨_, _, _, _, _, _, h⟩ := actOn_frame s v r; rw [h]
@[simp] theorem actOn_drawCount (v : Verdict) (r : CopyRecord) : (actOn v r s).drawCount = s.drawCount := by
  obtain ⟨_, _, _, _, _, _, h⟩ := actOn_frame s v r; rw [h]
@[simp] theorem actOn_choiceCount (v : Verdict) (r : CopyRecord) : (actOn v r s).choiceCount = s.choiceCount := by
  obtain ⟨_, _, _, _, _, _, h⟩ := actOn_frame s v r; rw [h]
@[simp] theorem actOn_orderCount (v : Verdict) (r : CopyRecord) : (actOn v r s).orderCount = s.orderCount := by
  obtain ⟨_, _, _, _, _, _, h⟩ := actOn_frame s v r; rw [h]
@[simp] theorem actOn_station (v : Verdict) (r : CopyRecord) : (actOn v r s).station = s.station := by
  obtain ⟨_, _, _, _, _, _, h⟩ := actOn_frame s v r; rw [h]
@[simp] theorem actOn_line (v : Verdict) (r : CopyRecord) : (actOn v r s).line = s.line := by
  obtain ⟨_, _, _, _, _, _, h⟩ := actOn_frame s v r; rw [h]
@[simp] theorem actOn_assembler (v : Verdict) (r : CopyRecord) : (actOn v r s).assembler = s.assembler := by
  obtain ⟨_, _, _, _, _, _, h⟩ := actOn_frame s v r; rw [h]
@[simp] theorem actOn_decoder (v : Verdict) (r : CopyRecord) : (actOn v r s).decoder = s.decoder := by
  obtain ⟨_, _, _, _, _, _, h⟩ := actOn_frame s v r; rw [h]
@[simp] theorem actOn_history (v : Verdict) (r : CopyRecord) : (actOn v r s).history = s.history := by
  obtain ⟨_, _, _, _, _, _, h⟩ := actOn_frame s v r; rw [h]
@[simp] theorem actOn_slots (v : Verdict) (r : CopyRecord) : (actOn v r s).slots = s.slots := by
  obtain ⟨_, _, _, _, _, _, h⟩ := actOn_frame s v r; rw [h]
@[simp] theorem actOn_inbox (v : Verdict) (r : CopyRecord) : (actOn v r s).inbox = s.inbox := by
  obtain ⟨_, _, _, _, _, _, h⟩ := actOn_frame s v r; rw [h]
@[simp] theorem actOn_reports (v : Verdict) (r : CopyRecord) : (actOn v r s).reports = s.reports := by
  obtain ⟨_, _, _, _, _, _, h⟩ := actOn_frame s v r; rw [h]
@[simp] theorem actOn_transmit (v : Verdict) (r : CopyRecord) : (actOn v r s).transmit = s.transmit := by
  obtain ⟨_, _, _, _, _, _, h⟩ := actOn_frame s v r; rw [h]
@[simp] theorem actOn_port (v : Verdict) (r : CopyRecord) : (actOn v r s).port = s.port := by
  obtain ⟨_, _, _, _, _, _, h⟩ := actOn_frame s v r; rw [h]

/-- What `giveVerdict` can change. -/
theorem giveVerdict_frame (r : CopyRecord) :
    ∃ x0 x1 x2 x3 x4 x5, giveVerdict r s = { s with counters := x0, flags := x1, table := x2, decodeQueue := x3, relays := x4, outbox := x5 } := by
  unfold giveVerdict
  repeat' (first | split | dsimp only)
  all_goals
    (repeat' apply Exists.intro)
    apply State.ext <;> first | with_reducible rfl | simp
@[simp] theorem giveVerdict_pending (r : CopyRecord) : (giveVerdict r s).pending = s.pending := by
  obtain ⟨_, _, _, _, _, _, h⟩ := giveVerdict_frame s r; rw [h]
@[simp] theorem giveVerdict_pins (r : CopyRecord) : (giveVerdict r s).pins = s.pins := by
  obtain ⟨_, _, _, _, _, _, h⟩ := giveVerdict_frame s r; rw [h]
@[simp] theorem giveVerdict_inputs (r : CopyRecord) : (giveVerdict r s).inputs = s.inputs := by
  obtain ⟨_, _, _, _, _, _, h⟩ := giveVerdict_frame s r; rw [h]
@[simp] theorem giveVerdict_refclk (r : CopyRecord) : (giveVerdict r s).refclk = s.refclk := by
  obtain ⟨_, _, _, _, _, _, h⟩ := giveVerdict_frame s r; rw [h]
@[simp] theorem giveVerdict_drawCount (r : CopyRecord) : (giveVerdict r s).drawCount = s.drawCount := by
  obtain ⟨_, _, _, _, _, _, h⟩ := giveVerdict_frame s r; rw [h]
@[simp] theorem giveVerdict_choiceCount (r : CopyRecord) : (giveVerdict r s).choiceCount = s.choiceCount := by
  obtain ⟨_, _, _, _, _, _, h⟩ := giveVerdict_frame s r; rw [h]
@[simp] theorem giveVerdict_orderCount (r : CopyRecord) : (giveVerdict r s).orderCount = s.orderCount := by
  obtain ⟨_, _, _, _, _, _, h⟩ := giveVerdict_frame s r; rw [h]
@[simp] theorem giveVerdict_station (r : CopyRecord) : (giveVerdict r s).station = s.station := by
  obtain ⟨_, _, _, _, _, _, h⟩ := giveVerdict_frame s r; rw [h]
@[simp] theorem giveVerdict_line (r : CopyRecord) : (giveVerdict r s).line = s.line := by
  obtain ⟨_, _, _, _, _, _, h⟩ := giveVerdict_frame s r; rw [h]
@[simp] theorem giveVerdict_assembler (r : CopyRecord) : (giveVerdict r s).assembler = s.assembler := by
  obtain ⟨_, _, _, _, _, _, h⟩ := giveVerdict_frame s r; rw [h]
@[simp] theorem giveVerdict_decoder (r : CopyRecord) : (giveVerdict r s).decoder = s.decoder := by
  obtain ⟨_, _, _, _, _, _, h⟩ := giveVerdict_frame s r; rw [h]
@[simp] theorem giveVerdict_history (r : CopyRecord) : (giveVerdict r s).history = s.history := by
  obtain ⟨_, _, _, _, _, _, h⟩ := giveVerdict_frame s r; rw [h]
@[simp] theorem giveVerdict_slots (r : CopyRecord) : (giveVerdict r s).slots = s.slots := by
  obtain ⟨_, _, _, _, _, _, h⟩ := giveVerdict_frame s r; rw [h]
@[simp] theorem giveVerdict_inbox (r : CopyRecord) : (giveVerdict r s).inbox = s.inbox := by
  obtain ⟨_, _, _, _, _, _, h⟩ := giveVerdict_frame s r; rw [h]
@[simp] theorem giveVerdict_reports (r : CopyRecord) : (giveVerdict r s).reports = s.reports := by
  obtain ⟨_, _, _, _, _, _, h⟩ := giveVerdict_frame s r; rw [h]
@[simp] theorem giveVerdict_transmit (r : CopyRecord) : (giveVerdict r s).transmit = s.transmit := by
  obtain ⟨_, _, _, _, _, _, h⟩ := giveVerdict_frame s r; rw [h]
@[simp] theorem giveVerdict_port (r : CopyRecord) : (giveVerdict r s).port = s.port := by
  obtain ⟨_, _, _, _, _, _, h⟩ := giveVerdict_frame s r; rw [h]

/-- What `rejectHeader` can change. -/
theorem rejectHeader_frame :
    ∃ x0 x1, rejectHeader s = { s with counters := x0, assembler := x1 } := by
  unfold rejectHeader
  repeat' (first | split | dsimp only)
  all_goals
    (repeat' apply Exists.intro)
    apply State.ext <;> first | with_reducible rfl | simp
@[simp] theorem rejectHeader_pending : (rejectHeader s).pending = s.pending := by
  obtain ⟨_, _, h⟩ := rejectHeader_frame s; rw [h]
@[simp] theorem rejectHeader_pins : (rejectHeader s).pins = s.pins := by
  obtain ⟨_, _, h⟩ := rejectHeader_frame s; rw [h]
@[simp] theorem rejectHeader_inputs : (rejectHeader s).inputs = s.inputs := by
  obtain ⟨_, _, h⟩ := rejectHeader_frame s; rw [h]
@[simp] theorem rejectHeader_refclk : (rejectHeader s).refclk = s.refclk := by
  obtain ⟨_, _, h⟩ := rejectHeader_frame s; rw [h]
@[simp] theorem rejectHeader_drawCount : (rejectHeader s).drawCount = s.drawCount := by
  obtain ⟨_, _, h⟩ := rejectHeader_frame s; rw [h]
@[simp] theorem rejectHeader_choiceCount : (rejectHeader s).choiceCount = s.choiceCount := by
  obtain ⟨_, _, h⟩ := rejectHeader_frame s; rw [h]
@[simp] theorem rejectHeader_orderCount : (rejectHeader s).orderCount = s.orderCount := by
  obtain ⟨_, _, h⟩ := rejectHeader_frame s; rw [h]
@[simp] theorem rejectHeader_station : (rejectHeader s).station = s.station := by
  obtain ⟨_, _, h⟩ := rejectHeader_frame s; rw [h]
@[simp] theorem rejectHeader_flags : (rejectHeader s).flags = s.flags := by
  obtain ⟨_, _, h⟩ := rejectHeader_frame s; rw [h]
@[simp] theorem rejectHeader_line : (rejectHeader s).line = s.line := by
  obtain ⟨_, _, h⟩ := rejectHeader_frame s; rw [h]
@[simp] theorem rejectHeader_table : (rejectHeader s).table = s.table := by
  obtain ⟨_, _, h⟩ := rejectHeader_frame s; rw [h]
@[simp] theorem rejectHeader_decodeQueue : (rejectHeader s).decodeQueue = s.decodeQueue := by
  obtain ⟨_, _, h⟩ := rejectHeader_frame s; rw [h]
@[simp] theorem rejectHeader_decoder : (rejectHeader s).decoder = s.decoder := by
  obtain ⟨_, _, h⟩ := rejectHeader_frame s; rw [h]
@[simp] theorem rejectHeader_history : (rejectHeader s).history = s.history := by
  obtain ⟨_, _, h⟩ := rejectHeader_frame s; rw [h]
@[simp] theorem rejectHeader_slots : (rejectHeader s).slots = s.slots := by
  obtain ⟨_, _, h⟩ := rejectHeader_frame s; rw [h]
@[simp] theorem rejectHeader_inbox : (rejectHeader s).inbox = s.inbox := by
  obtain ⟨_, _, h⟩ := rejectHeader_frame s; rw [h]
@[simp] theorem rejectHeader_relays : (rejectHeader s).relays = s.relays := by
  obtain ⟨_, _, h⟩ := rejectHeader_frame s; rw [h]
@[simp] theorem rejectHeader_outbox : (rejectHeader s).outbox = s.outbox := by
  obtain ⟨_, _, h⟩ := rejectHeader_frame s; rw [h]
@[simp] theorem rejectHeader_reports : (rejectHeader s).reports = s.reports := by
  obtain ⟨_, _, h⟩ := rejectHeader_frame s; rw [h]
@[simp] theorem rejectHeader_transmit : (rejectHeader s).transmit = s.transmit := by
  obtain ⟨_, _, h⟩ := rejectHeader_frame s; rw [h]
@[simp] theorem rejectHeader_port : (rejectHeader s).port = s.port := by
  obtain ⟨_, _, h⟩ := rejectHeader_frame s; rw [h]

/-- What `closeCopy` can change. -/
theorem closeCopy_frame (n : AssemblerPhase) :
    ∃ x0 x1 x2 x3 x4 x5 x6, closeCopy n s = { s with counters := x0, flags := x1, assembler := x2, table := x3, decodeQueue := x4, relays := x5, outbox := x6 } := by
  unfold closeCopy
  repeat' (first | split | dsimp only)
  all_goals
    (repeat' apply Exists.intro)
    apply State.ext <;> first | with_reducible rfl | simp
@[simp] theorem closeCopy_pending (n : AssemblerPhase) : (closeCopy n s).pending = s.pending := by
  obtain ⟨_, _, _, _, _, _, _, h⟩ := closeCopy_frame s n; rw [h]
@[simp] theorem closeCopy_pins (n : AssemblerPhase) : (closeCopy n s).pins = s.pins := by
  obtain ⟨_, _, _, _, _, _, _, h⟩ := closeCopy_frame s n; rw [h]
@[simp] theorem closeCopy_inputs (n : AssemblerPhase) : (closeCopy n s).inputs = s.inputs := by
  obtain ⟨_, _, _, _, _, _, _, h⟩ := closeCopy_frame s n; rw [h]
@[simp] theorem closeCopy_refclk (n : AssemblerPhase) : (closeCopy n s).refclk = s.refclk := by
  obtain ⟨_, _, _, _, _, _, _, h⟩ := closeCopy_frame s n; rw [h]
@[simp] theorem closeCopy_drawCount (n : AssemblerPhase) : (closeCopy n s).drawCount = s.drawCount := by
  obtain ⟨_, _, _, _, _, _, _, h⟩ := closeCopy_frame s n; rw [h]
@[simp] theorem closeCopy_choiceCount (n : AssemblerPhase) : (closeCopy n s).choiceCount = s.choiceCount := by
  obtain ⟨_, _, _, _, _, _, _, h⟩ := closeCopy_frame s n; rw [h]
@[simp] theorem closeCopy_orderCount (n : AssemblerPhase) : (closeCopy n s).orderCount = s.orderCount := by
  obtain ⟨_, _, _, _, _, _, _, h⟩ := closeCopy_frame s n; rw [h]
@[simp] theorem closeCopy_station (n : AssemblerPhase) : (closeCopy n s).station = s.station := by
  obtain ⟨_, _, _, _, _, _, _, h⟩ := closeCopy_frame s n; rw [h]
@[simp] theorem closeCopy_line (n : AssemblerPhase) : (closeCopy n s).line = s.line := by
  obtain ⟨_, _, _, _, _, _, _, h⟩ := closeCopy_frame s n; rw [h]
@[simp] theorem closeCopy_decoder (n : AssemblerPhase) : (closeCopy n s).decoder = s.decoder := by
  obtain ⟨_, _, _, _, _, _, _, h⟩ := closeCopy_frame s n; rw [h]
@[simp] theorem closeCopy_history (n : AssemblerPhase) : (closeCopy n s).history = s.history := by
  obtain ⟨_, _, _, _, _, _, _, h⟩ := closeCopy_frame s n; rw [h]
@[simp] theorem closeCopy_slots (n : AssemblerPhase) : (closeCopy n s).slots = s.slots := by
  obtain ⟨_, _, _, _, _, _, _, h⟩ := closeCopy_frame s n; rw [h]
@[simp] theorem closeCopy_inbox (n : AssemblerPhase) : (closeCopy n s).inbox = s.inbox := by
  obtain ⟨_, _, _, _, _, _, _, h⟩ := closeCopy_frame s n; rw [h]
@[simp] theorem closeCopy_reports (n : AssemblerPhase) : (closeCopy n s).reports = s.reports := by
  obtain ⟨_, _, _, _, _, _, _, h⟩ := closeCopy_frame s n; rw [h]
@[simp] theorem closeCopy_transmit (n : AssemblerPhase) : (closeCopy n s).transmit = s.transmit := by
  obtain ⟨_, _, _, _, _, _, _, h⟩ := closeCopy_frame s n; rw [h]
@[simp] theorem closeCopy_port (n : AssemblerPhase) : (closeCopy n s).port = s.port := by
  obtain ⟨_, _, _, _, _, _, _, h⟩ := closeCopy_frame s n; rw [h]

/-- What `truncateCopy` can change. -/
theorem truncateCopy_frame :
    ∃ x0 x1 x2 x3 x4 x5 x6, truncateCopy s = { s with counters := x0, flags := x1, assembler := x2, table := x3, decodeQueue := x4, relays := x5, outbox := x6 } := by
  unfold truncateCopy
  repeat' (first | split | dsimp only)
  all_goals
    (repeat' apply Exists.intro)
    apply State.ext <;> first | with_reducible rfl | simp
@[simp] theorem truncateCopy_pending : (truncateCopy s).pending = s.pending := by
  obtain ⟨_, _, _, _, _, _, _, h⟩ := truncateCopy_frame s; rw [h]
@[simp] theorem truncateCopy_pins : (truncateCopy s).pins = s.pins := by
  obtain ⟨_, _, _, _, _, _, _, h⟩ := truncateCopy_frame s; rw [h]
@[simp] theorem truncateCopy_inputs : (truncateCopy s).inputs = s.inputs := by
  obtain ⟨_, _, _, _, _, _, _, h⟩ := truncateCopy_frame s; rw [h]
@[simp] theorem truncateCopy_refclk : (truncateCopy s).refclk = s.refclk := by
  obtain ⟨_, _, _, _, _, _, _, h⟩ := truncateCopy_frame s; rw [h]
@[simp] theorem truncateCopy_drawCount : (truncateCopy s).drawCount = s.drawCount := by
  obtain ⟨_, _, _, _, _, _, _, h⟩ := truncateCopy_frame s; rw [h]
@[simp] theorem truncateCopy_choiceCount : (truncateCopy s).choiceCount = s.choiceCount := by
  obtain ⟨_, _, _, _, _, _, _, h⟩ := truncateCopy_frame s; rw [h]
@[simp] theorem truncateCopy_orderCount : (truncateCopy s).orderCount = s.orderCount := by
  obtain ⟨_, _, _, _, _, _, _, h⟩ := truncateCopy_frame s; rw [h]
@[simp] theorem truncateCopy_station : (truncateCopy s).station = s.station := by
  obtain ⟨_, _, _, _, _, _, _, h⟩ := truncateCopy_frame s; rw [h]
@[simp] theorem truncateCopy_line : (truncateCopy s).line = s.line := by
  obtain ⟨_, _, _, _, _, _, _, h⟩ := truncateCopy_frame s; rw [h]
@[simp] theorem truncateCopy_decoder : (truncateCopy s).decoder = s.decoder := by
  obtain ⟨_, _, _, _, _, _, _, h⟩ := truncateCopy_frame s; rw [h]
@[simp] theorem truncateCopy_history : (truncateCopy s).history = s.history := by
  obtain ⟨_, _, _, _, _, _, _, h⟩ := truncateCopy_frame s; rw [h]
@[simp] theorem truncateCopy_slots : (truncateCopy s).slots = s.slots := by
  obtain ⟨_, _, _, _, _, _, _, h⟩ := truncateCopy_frame s; rw [h]
@[simp] theorem truncateCopy_inbox : (truncateCopy s).inbox = s.inbox := by
  obtain ⟨_, _, _, _, _, _, _, h⟩ := truncateCopy_frame s; rw [h]
@[simp] theorem truncateCopy_reports : (truncateCopy s).reports = s.reports := by
  obtain ⟨_, _, _, _, _, _, _, h⟩ := truncateCopy_frame s; rw [h]
@[simp] theorem truncateCopy_transmit : (truncateCopy s).transmit = s.transmit := by
  obtain ⟨_, _, _, _, _, _, _, h⟩ := truncateCopy_frame s; rw [h]
@[simp] theorem truncateCopy_port : (truncateCopy s).port = s.port := by
  obtain ⟨_, _, _, _, _, _, _, h⟩ := truncateCopy_frame s; rw [h]

/-- What `headerSymbol` can change. -/
theorem headerSymbol_frame (c : Int) (b : Bool) :
    ∃ x0 x1, headerSymbol c b s = { s with counters := x0, assembler := x1 } := by
  unfold headerSymbol
  repeat' (first | split | dsimp only)
  all_goals
    (repeat' apply Exists.intro)
    apply State.ext <;> first | with_reducible rfl | simp
@[simp] theorem headerSymbol_pending (c : Int) (b : Bool) : (headerSymbol c b s).pending = s.pending := by
  obtain ⟨_, _, h⟩ := headerSymbol_frame s c b; rw [h]
@[simp] theorem headerSymbol_pins (c : Int) (b : Bool) : (headerSymbol c b s).pins = s.pins := by
  obtain ⟨_, _, h⟩ := headerSymbol_frame s c b; rw [h]
@[simp] theorem headerSymbol_inputs (c : Int) (b : Bool) : (headerSymbol c b s).inputs = s.inputs := by
  obtain ⟨_, _, h⟩ := headerSymbol_frame s c b; rw [h]
@[simp] theorem headerSymbol_refclk (c : Int) (b : Bool) : (headerSymbol c b s).refclk = s.refclk := by
  obtain ⟨_, _, h⟩ := headerSymbol_frame s c b; rw [h]
@[simp] theorem headerSymbol_drawCount (c : Int) (b : Bool) : (headerSymbol c b s).drawCount = s.drawCount := by
  obtain ⟨_, _, h⟩ := headerSymbol_frame s c b; rw [h]
@[simp] theorem headerSymbol_choiceCount (c : Int) (b : Bool) : (headerSymbol c b s).choiceCount = s.choiceCount := by
  obtain ⟨_, _, h⟩ := headerSymbol_frame s c b; rw [h]
@[simp] theorem headerSymbol_orderCount (c : Int) (b : Bool) : (headerSymbol c b s).orderCount = s.orderCount := by
  obtain ⟨_, _, h⟩ := headerSymbol_frame s c b; rw [h]
@[simp] theorem headerSymbol_station (c : Int) (b : Bool) : (headerSymbol c b s).station = s.station := by
  obtain ⟨_, _, h⟩ := headerSymbol_frame s c b; rw [h]
@[simp] theorem headerSymbol_flags (c : Int) (b : Bool) : (headerSymbol c b s).flags = s.flags := by
  obtain ⟨_, _, h⟩ := headerSymbol_frame s c b; rw [h]
@[simp] theorem headerSymbol_line (c : Int) (b : Bool) : (headerSymbol c b s).line = s.line := by
  obtain ⟨_, _, h⟩ := headerSymbol_frame s c b; rw [h]
@[simp] theorem headerSymbol_table (c : Int) (b : Bool) : (headerSymbol c b s).table = s.table := by
  obtain ⟨_, _, h⟩ := headerSymbol_frame s c b; rw [h]
@[simp] theorem headerSymbol_decodeQueue (c : Int) (b : Bool) : (headerSymbol c b s).decodeQueue = s.decodeQueue := by
  obtain ⟨_, _, h⟩ := headerSymbol_frame s c b; rw [h]
@[simp] theorem headerSymbol_decoder (c : Int) (b : Bool) : (headerSymbol c b s).decoder = s.decoder := by
  obtain ⟨_, _, h⟩ := headerSymbol_frame s c b; rw [h]
@[simp] theorem headerSymbol_history (c : Int) (b : Bool) : (headerSymbol c b s).history = s.history := by
  obtain ⟨_, _, h⟩ := headerSymbol_frame s c b; rw [h]
@[simp] theorem headerSymbol_slots (c : Int) (b : Bool) : (headerSymbol c b s).slots = s.slots := by
  obtain ⟨_, _, h⟩ := headerSymbol_frame s c b; rw [h]
@[simp] theorem headerSymbol_inbox (c : Int) (b : Bool) : (headerSymbol c b s).inbox = s.inbox := by
  obtain ⟨_, _, h⟩ := headerSymbol_frame s c b; rw [h]
@[simp] theorem headerSymbol_relays (c : Int) (b : Bool) : (headerSymbol c b s).relays = s.relays := by
  obtain ⟨_, _, h⟩ := headerSymbol_frame s c b; rw [h]
@[simp] theorem headerSymbol_outbox (c : Int) (b : Bool) : (headerSymbol c b s).outbox = s.outbox := by
  obtain ⟨_, _, h⟩ := headerSymbol_frame s c b; rw [h]
@[simp] theorem headerSymbol_reports (c : Int) (b : Bool) : (headerSymbol c b s).reports = s.reports := by
  obtain ⟨_, _, h⟩ := headerSymbol_frame s c b; rw [h]
@[simp] theorem headerSymbol_transmit (c : Int) (b : Bool) : (headerSymbol c b s).transmit = s.transmit := by
  obtain ⟨_, _, h⟩ := headerSymbol_frame s c b; rw [h]
@[simp] theorem headerSymbol_port (c : Int) (b : Bool) : (headerSymbol c b s).port = s.port := by
  obtain ⟨_, _, h⟩ := headerSymbol_frame s c b; rw [h]

/-- What `bodySymbol` can change. -/
theorem bodySymbol_frame (c : Int) (b : Bool) :
    ∃ x0 x1 x2 x3 x4 x5 x6, bodySymbol c b s = { s with counters := x0, flags := x1, assembler := x2, table := x3, decodeQueue := x4, relays := x5, outbox := x6 } := by
  unfold bodySymbol
  repeat' (first | split | dsimp only)
  all_goals
    (repeat' apply Exists.intro)
    apply State.ext <;> first | with_reducible rfl | simp
@[simp] theorem bodySymbol_pending (c : Int) (b : Bool) : (bodySymbol c b s).pending = s.pending := by
  obtain ⟨_, _, _, _, _, _, _, h⟩ := bodySymbol_frame s c b; rw [h]
@[simp] theorem bodySymbol_pins (c : Int) (b : Bool) : (bodySymbol c b s).pins = s.pins := by
  obtain ⟨_, _, _, _, _, _, _, h⟩ := bodySymbol_frame s c b; rw [h]
@[simp] theorem bodySymbol_inputs (c : Int) (b : Bool) : (bodySymbol c b s).inputs = s.inputs := by
  obtain ⟨_, _, _, _, _, _, _, h⟩ := bodySymbol_frame s c b; rw [h]
@[simp] theorem bodySymbol_refclk (c : Int) (b : Bool) : (bodySymbol c b s).refclk = s.refclk := by
  obtain ⟨_, _, _, _, _, _, _, h⟩ := bodySymbol_frame s c b; rw [h]
@[simp] theorem bodySymbol_drawCount (c : Int) (b : Bool) : (bodySymbol c b s).drawCount = s.drawCount := by
  obtain ⟨_, _, _, _, _, _, _, h⟩ := bodySymbol_frame s c b; rw [h]
@[simp] theorem bodySymbol_choiceCount (c : Int) (b : Bool) : (bodySymbol c b s).choiceCount = s.choiceCount := by
  obtain ⟨_, _, _, _, _, _, _, h⟩ := bodySymbol_frame s c b; rw [h]
@[simp] theorem bodySymbol_orderCount (c : Int) (b : Bool) : (bodySymbol c b s).orderCount = s.orderCount := by
  obtain ⟨_, _, _, _, _, _, _, h⟩ := bodySymbol_frame s c b; rw [h]
@[simp] theorem bodySymbol_station (c : Int) (b : Bool) : (bodySymbol c b s).station = s.station := by
  obtain ⟨_, _, _, _, _, _, _, h⟩ := bodySymbol_frame s c b; rw [h]
@[simp] theorem bodySymbol_line (c : Int) (b : Bool) : (bodySymbol c b s).line = s.line := by
  obtain ⟨_, _, _, _, _, _, _, h⟩ := bodySymbol_frame s c b; rw [h]
@[simp] theorem bodySymbol_decoder (c : Int) (b : Bool) : (bodySymbol c b s).decoder = s.decoder := by
  obtain ⟨_, _, _, _, _, _, _, h⟩ := bodySymbol_frame s c b; rw [h]
@[simp] theorem bodySymbol_history (c : Int) (b : Bool) : (bodySymbol c b s).history = s.history := by
  obtain ⟨_, _, _, _, _, _, _, h⟩ := bodySymbol_frame s c b; rw [h]
@[simp] theorem bodySymbol_slots (c : Int) (b : Bool) : (bodySymbol c b s).slots = s.slots := by
  obtain ⟨_, _, _, _, _, _, _, h⟩ := bodySymbol_frame s c b; rw [h]
@[simp] theorem bodySymbol_inbox (c : Int) (b : Bool) : (bodySymbol c b s).inbox = s.inbox := by
  obtain ⟨_, _, _, _, _, _, _, h⟩ := bodySymbol_frame s c b; rw [h]
@[simp] theorem bodySymbol_reports (c : Int) (b : Bool) : (bodySymbol c b s).reports = s.reports := by
  obtain ⟨_, _, _, _, _, _, _, h⟩ := bodySymbol_frame s c b; rw [h]
@[simp] theorem bodySymbol_transmit (c : Int) (b : Bool) : (bodySymbol c b s).transmit = s.transmit := by
  obtain ⟨_, _, _, _, _, _, _, h⟩ := bodySymbol_frame s c b; rw [h]
@[simp] theorem bodySymbol_port (c : Int) (b : Bool) : (bodySymbol c b s).port = s.port := by
  obtain ⟨_, _, _, _, _, _, _, h⟩ := bodySymbol_frame s c b; rw [h]

/-- What `huntEvent` can change. -/
theorem huntEvent_frame (e : LineEvent) :
    ∃ x0, huntEvent e s = { s with assembler := x0 } := by
  unfold huntEvent
  repeat' (first | split | dsimp only)
  all_goals
    (repeat' apply Exists.intro)
    apply State.ext <;> first | with_reducible rfl | simp
@[simp] theorem huntEvent_pending (e : LineEvent) : (huntEvent e s).pending = s.pending := by
  obtain ⟨_, h⟩ := huntEvent_frame s e; rw [h]
@[simp] theorem huntEvent_pins (e : LineEvent) : (huntEvent e s).pins = s.pins := by
  obtain ⟨_, h⟩ := huntEvent_frame s e; rw [h]
@[simp] theorem huntEvent_inputs (e : LineEvent) : (huntEvent e s).inputs = s.inputs := by
  obtain ⟨_, h⟩ := huntEvent_frame s e; rw [h]
@[simp] theorem huntEvent_refclk (e : LineEvent) : (huntEvent e s).refclk = s.refclk := by
  obtain ⟨_, h⟩ := huntEvent_frame s e; rw [h]
@[simp] theorem huntEvent_drawCount (e : LineEvent) : (huntEvent e s).drawCount = s.drawCount := by
  obtain ⟨_, h⟩ := huntEvent_frame s e; rw [h]
@[simp] theorem huntEvent_choiceCount (e : LineEvent) : (huntEvent e s).choiceCount = s.choiceCount := by
  obtain ⟨_, h⟩ := huntEvent_frame s e; rw [h]
@[simp] theorem huntEvent_orderCount (e : LineEvent) : (huntEvent e s).orderCount = s.orderCount := by
  obtain ⟨_, h⟩ := huntEvent_frame s e; rw [h]
@[simp] theorem huntEvent_station (e : LineEvent) : (huntEvent e s).station = s.station := by
  obtain ⟨_, h⟩ := huntEvent_frame s e; rw [h]
@[simp] theorem huntEvent_counters (e : LineEvent) : (huntEvent e s).counters = s.counters := by
  obtain ⟨_, h⟩ := huntEvent_frame s e; rw [h]
@[simp] theorem huntEvent_flags (e : LineEvent) : (huntEvent e s).flags = s.flags := by
  obtain ⟨_, h⟩ := huntEvent_frame s e; rw [h]
@[simp] theorem huntEvent_line (e : LineEvent) : (huntEvent e s).line = s.line := by
  obtain ⟨_, h⟩ := huntEvent_frame s e; rw [h]
@[simp] theorem huntEvent_table (e : LineEvent) : (huntEvent e s).table = s.table := by
  obtain ⟨_, h⟩ := huntEvent_frame s e; rw [h]
@[simp] theorem huntEvent_decodeQueue (e : LineEvent) : (huntEvent e s).decodeQueue = s.decodeQueue := by
  obtain ⟨_, h⟩ := huntEvent_frame s e; rw [h]
@[simp] theorem huntEvent_decoder (e : LineEvent) : (huntEvent e s).decoder = s.decoder := by
  obtain ⟨_, h⟩ := huntEvent_frame s e; rw [h]
@[simp] theorem huntEvent_history (e : LineEvent) : (huntEvent e s).history = s.history := by
  obtain ⟨_, h⟩ := huntEvent_frame s e; rw [h]
@[simp] theorem huntEvent_slots (e : LineEvent) : (huntEvent e s).slots = s.slots := by
  obtain ⟨_, h⟩ := huntEvent_frame s e; rw [h]
@[simp] theorem huntEvent_inbox (e : LineEvent) : (huntEvent e s).inbox = s.inbox := by
  obtain ⟨_, h⟩ := huntEvent_frame s e; rw [h]
@[simp] theorem huntEvent_relays (e : LineEvent) : (huntEvent e s).relays = s.relays := by
  obtain ⟨_, h⟩ := huntEvent_frame s e; rw [h]
@[simp] theorem huntEvent_outbox (e : LineEvent) : (huntEvent e s).outbox = s.outbox := by
  obtain ⟨_, h⟩ := huntEvent_frame s e; rw [h]
@[simp] theorem huntEvent_reports (e : LineEvent) : (huntEvent e s).reports = s.reports := by
  obtain ⟨_, h⟩ := huntEvent_frame s e; rw [h]
@[simp] theorem huntEvent_transmit (e : LineEvent) : (huntEvent e s).transmit = s.transmit := by
  obtain ⟨_, h⟩ := huntEvent_frame s e; rw [h]
@[simp] theorem huntEvent_port (e : LineEvent) : (huntEvent e s).port = s.port := by
  obtain ⟨_, h⟩ := huntEvent_frame s e; rw [h]

/-- What `headerEvent` can change. -/
theorem headerEvent_frame (e : LineEvent) :
    ∃ x0 x1, headerEvent e s = { s with counters := x0, assembler := x1 } := by
  unfold headerEvent
  repeat' (first | split | dsimp only)
  all_goals
    (repeat' apply Exists.intro)
    apply State.ext <;> first | with_reducible rfl | simp
@[simp] theorem headerEvent_pending (e : LineEvent) : (headerEvent e s).pending = s.pending := by
  obtain ⟨_, _, h⟩ := headerEvent_frame s e; rw [h]
@[simp] theorem headerEvent_pins (e : LineEvent) : (headerEvent e s).pins = s.pins := by
  obtain ⟨_, _, h⟩ := headerEvent_frame s e; rw [h]
@[simp] theorem headerEvent_inputs (e : LineEvent) : (headerEvent e s).inputs = s.inputs := by
  obtain ⟨_, _, h⟩ := headerEvent_frame s e; rw [h]
@[simp] theorem headerEvent_refclk (e : LineEvent) : (headerEvent e s).refclk = s.refclk := by
  obtain ⟨_, _, h⟩ := headerEvent_frame s e; rw [h]
@[simp] theorem headerEvent_drawCount (e : LineEvent) : (headerEvent e s).drawCount = s.drawCount := by
  obtain ⟨_, _, h⟩ := headerEvent_frame s e; rw [h]
@[simp] theorem headerEvent_choiceCount (e : LineEvent) : (headerEvent e s).choiceCount = s.choiceCount := by
  obtain ⟨_, _, h⟩ := headerEvent_frame s e; rw [h]
@[simp] theorem headerEvent_orderCount (e : LineEvent) : (headerEvent e s).orderCount = s.orderCount := by
  obtain ⟨_, _, h⟩ := headerEvent_frame s e; rw [h]
@[simp] theorem headerEvent_station (e : LineEvent) : (headerEvent e s).station = s.station := by
  obtain ⟨_, _, h⟩ := headerEvent_frame s e; rw [h]
@[simp] theorem headerEvent_flags (e : LineEvent) : (headerEvent e s).flags = s.flags := by
  obtain ⟨_, _, h⟩ := headerEvent_frame s e; rw [h]
@[simp] theorem headerEvent_line (e : LineEvent) : (headerEvent e s).line = s.line := by
  obtain ⟨_, _, h⟩ := headerEvent_frame s e; rw [h]
@[simp] theorem headerEvent_table (e : LineEvent) : (headerEvent e s).table = s.table := by
  obtain ⟨_, _, h⟩ := headerEvent_frame s e; rw [h]
@[simp] theorem headerEvent_decodeQueue (e : LineEvent) : (headerEvent e s).decodeQueue = s.decodeQueue := by
  obtain ⟨_, _, h⟩ := headerEvent_frame s e; rw [h]
@[simp] theorem headerEvent_decoder (e : LineEvent) : (headerEvent e s).decoder = s.decoder := by
  obtain ⟨_, _, h⟩ := headerEvent_frame s e; rw [h]
@[simp] theorem headerEvent_history (e : LineEvent) : (headerEvent e s).history = s.history := by
  obtain ⟨_, _, h⟩ := headerEvent_frame s e; rw [h]
@[simp] theorem headerEvent_slots (e : LineEvent) : (headerEvent e s).slots = s.slots := by
  obtain ⟨_, _, h⟩ := headerEvent_frame s e; rw [h]
@[simp] theorem headerEvent_inbox (e : LineEvent) : (headerEvent e s).inbox = s.inbox := by
  obtain ⟨_, _, h⟩ := headerEvent_frame s e; rw [h]
@[simp] theorem headerEvent_relays (e : LineEvent) : (headerEvent e s).relays = s.relays := by
  obtain ⟨_, _, h⟩ := headerEvent_frame s e; rw [h]
@[simp] theorem headerEvent_outbox (e : LineEvent) : (headerEvent e s).outbox = s.outbox := by
  obtain ⟨_, _, h⟩ := headerEvent_frame s e; rw [h]
@[simp] theorem headerEvent_reports (e : LineEvent) : (headerEvent e s).reports = s.reports := by
  obtain ⟨_, _, h⟩ := headerEvent_frame s e; rw [h]
@[simp] theorem headerEvent_transmit (e : LineEvent) : (headerEvent e s).transmit = s.transmit := by
  obtain ⟨_, _, h⟩ := headerEvent_frame s e; rw [h]
@[simp] theorem headerEvent_port (e : LineEvent) : (headerEvent e s).port = s.port := by
  obtain ⟨_, _, h⟩ := headerEvent_frame s e; rw [h]

/-- What `bodyEvent` can change. -/
theorem bodyEvent_frame (e : LineEvent) :
    ∃ x0 x1 x2 x3 x4 x5 x6, bodyEvent e s = { s with counters := x0, flags := x1, assembler := x2, table := x3, decodeQueue := x4, relays := x5, outbox := x6 } := by
  unfold bodyEvent
  repeat' (first | split | dsimp only)
  all_goals
    (repeat' apply Exists.intro)
    apply State.ext <;> first | with_reducible rfl | simp
@[simp] theorem bodyEvent_pending (e : LineEvent) : (bodyEvent e s).pending = s.pending := by
  obtain ⟨_, _, _, _, _, _, _, h⟩ := bodyEvent_frame s e; rw [h]
@[simp] theorem bodyEvent_pins (e : LineEvent) : (bodyEvent e s).pins = s.pins := by
  obtain ⟨_, _, _, _, _, _, _, h⟩ := bodyEvent_frame s e; rw [h]
@[simp] theorem bodyEvent_inputs (e : LineEvent) : (bodyEvent e s).inputs = s.inputs := by
  obtain ⟨_, _, _, _, _, _, _, h⟩ := bodyEvent_frame s e; rw [h]
@[simp] theorem bodyEvent_refclk (e : LineEvent) : (bodyEvent e s).refclk = s.refclk := by
  obtain ⟨_, _, _, _, _, _, _, h⟩ := bodyEvent_frame s e; rw [h]
@[simp] theorem bodyEvent_drawCount (e : LineEvent) : (bodyEvent e s).drawCount = s.drawCount := by
  obtain ⟨_, _, _, _, _, _, _, h⟩ := bodyEvent_frame s e; rw [h]
@[simp] theorem bodyEvent_choiceCount (e : LineEvent) : (bodyEvent e s).choiceCount = s.choiceCount := by
  obtain ⟨_, _, _, _, _, _, _, h⟩ := bodyEvent_frame s e; rw [h]
@[simp] theorem bodyEvent_orderCount (e : LineEvent) : (bodyEvent e s).orderCount = s.orderCount := by
  obtain ⟨_, _, _, _, _, _, _, h⟩ := bodyEvent_frame s e; rw [h]
@[simp] theorem bodyEvent_station (e : LineEvent) : (bodyEvent e s).station = s.station := by
  obtain ⟨_, _, _, _, _, _, _, h⟩ := bodyEvent_frame s e; rw [h]
@[simp] theorem bodyEvent_line (e : LineEvent) : (bodyEvent e s).line = s.line := by
  obtain ⟨_, _, _, _, _, _, _, h⟩ := bodyEvent_frame s e; rw [h]
@[simp] theorem bodyEvent_decoder (e : LineEvent) : (bodyEvent e s).decoder = s.decoder := by
  obtain ⟨_, _, _, _, _, _, _, h⟩ := bodyEvent_frame s e; rw [h]
@[simp] theorem bodyEvent_history (e : LineEvent) : (bodyEvent e s).history = s.history := by
  obtain ⟨_, _, _, _, _, _, _, h⟩ := bodyEvent_frame s e; rw [h]
@[simp] theorem bodyEvent_slots (e : LineEvent) : (bodyEvent e s).slots = s.slots := by
  obtain ⟨_, _, _, _, _, _, _, h⟩ := bodyEvent_frame s e; rw [h]
@[simp] theorem bodyEvent_inbox (e : LineEvent) : (bodyEvent e s).inbox = s.inbox := by
  obtain ⟨_, _, _, _, _, _, _, h⟩ := bodyEvent_frame s e; rw [h]
@[simp] theorem bodyEvent_reports (e : LineEvent) : (bodyEvent e s).reports = s.reports := by
  obtain ⟨_, _, _, _, _, _, _, h⟩ := bodyEvent_frame s e; rw [h]
@[simp] theorem bodyEvent_transmit (e : LineEvent) : (bodyEvent e s).transmit = s.transmit := by
  obtain ⟨_, _, _, _, _, _, _, h⟩ := bodyEvent_frame s e; rw [h]
@[simp] theorem bodyEvent_port (e : LineEvent) : (bodyEvent e s).port = s.port := by
  obtain ⟨_, _, _, _, _, _, _, h⟩ := bodyEvent_frame s e; rw [h]

/-- What `tailEvent` can change. -/
theorem tailEvent_frame (e : LineEvent) :
    ∃ x0, tailEvent e s = { s with assembler := x0 } := by
  unfold tailEvent
  repeat' (first | split | dsimp only)
  all_goals
    (repeat' apply Exists.intro)
    apply State.ext <;> first | with_reducible rfl | simp
@[simp] theorem tailEvent_pending (e : LineEvent) : (tailEvent e s).pending = s.pending := by
  obtain ⟨_, h⟩ := tailEvent_frame s e; rw [h]
@[simp] theorem tailEvent_pins (e : LineEvent) : (tailEvent e s).pins = s.pins := by
  obtain ⟨_, h⟩ := tailEvent_frame s e; rw [h]
@[simp] theorem tailEvent_inputs (e : LineEvent) : (tailEvent e s).inputs = s.inputs := by
  obtain ⟨_, h⟩ := tailEvent_frame s e; rw [h]
@[simp] theorem tailEvent_refclk (e : LineEvent) : (tailEvent e s).refclk = s.refclk := by
  obtain ⟨_, h⟩ := tailEvent_frame s e; rw [h]
@[simp] theorem tailEvent_drawCount (e : LineEvent) : (tailEvent e s).drawCount = s.drawCount := by
  obtain ⟨_, h⟩ := tailEvent_frame s e; rw [h]
@[simp] theorem tailEvent_choiceCount (e : LineEvent) : (tailEvent e s).choiceCount = s.choiceCount := by
  obtain ⟨_, h⟩ := tailEvent_frame s e; rw [h]
@[simp] theorem tailEvent_orderCount (e : LineEvent) : (tailEvent e s).orderCount = s.orderCount := by
  obtain ⟨_, h⟩ := tailEvent_frame s e; rw [h]
@[simp] theorem tailEvent_station (e : LineEvent) : (tailEvent e s).station = s.station := by
  obtain ⟨_, h⟩ := tailEvent_frame s e; rw [h]
@[simp] theorem tailEvent_counters (e : LineEvent) : (tailEvent e s).counters = s.counters := by
  obtain ⟨_, h⟩ := tailEvent_frame s e; rw [h]
@[simp] theorem tailEvent_flags (e : LineEvent) : (tailEvent e s).flags = s.flags := by
  obtain ⟨_, h⟩ := tailEvent_frame s e; rw [h]
@[simp] theorem tailEvent_line (e : LineEvent) : (tailEvent e s).line = s.line := by
  obtain ⟨_, h⟩ := tailEvent_frame s e; rw [h]
@[simp] theorem tailEvent_table (e : LineEvent) : (tailEvent e s).table = s.table := by
  obtain ⟨_, h⟩ := tailEvent_frame s e; rw [h]
@[simp] theorem tailEvent_decodeQueue (e : LineEvent) : (tailEvent e s).decodeQueue = s.decodeQueue := by
  obtain ⟨_, h⟩ := tailEvent_frame s e; rw [h]
@[simp] theorem tailEvent_decoder (e : LineEvent) : (tailEvent e s).decoder = s.decoder := by
  obtain ⟨_, h⟩ := tailEvent_frame s e; rw [h]
@[simp] theorem tailEvent_history (e : LineEvent) : (tailEvent e s).history = s.history := by
  obtain ⟨_, h⟩ := tailEvent_frame s e; rw [h]
@[simp] theorem tailEvent_slots (e : LineEvent) : (tailEvent e s).slots = s.slots := by
  obtain ⟨_, h⟩ := tailEvent_frame s e; rw [h]
@[simp] theorem tailEvent_inbox (e : LineEvent) : (tailEvent e s).inbox = s.inbox := by
  obtain ⟨_, h⟩ := tailEvent_frame s e; rw [h]
@[simp] theorem tailEvent_relays (e : LineEvent) : (tailEvent e s).relays = s.relays := by
  obtain ⟨_, h⟩ := tailEvent_frame s e; rw [h]
@[simp] theorem tailEvent_outbox (e : LineEvent) : (tailEvent e s).outbox = s.outbox := by
  obtain ⟨_, h⟩ := tailEvent_frame s e; rw [h]
@[simp] theorem tailEvent_reports (e : LineEvent) : (tailEvent e s).reports = s.reports := by
  obtain ⟨_, h⟩ := tailEvent_frame s e; rw [h]
@[simp] theorem tailEvent_transmit (e : LineEvent) : (tailEvent e s).transmit = s.transmit := by
  obtain ⟨_, h⟩ := tailEvent_frame s e; rw [h]
@[simp] theorem tailEvent_port (e : LineEvent) : (tailEvent e s).port = s.port := by
  obtain ⟨_, h⟩ := tailEvent_frame s e; rw [h]

/-- What `assemble` can change. -/
theorem assemble_frame (e : LineEvent) :
    ∃ x0 x1 x2 x3 x4 x5 x6, assemble e s = { s with counters := x0, flags := x1, assembler := x2, table := x3, decodeQueue := x4, relays := x5, outbox := x6 } := by
  unfold assemble
  repeat' (first | split | dsimp only)
  all_goals
    (repeat' apply Exists.intro)
    apply State.ext <;> first | with_reducible rfl | simp
@[simp] theorem assemble_pending (e : LineEvent) : (assemble e s).pending = s.pending := by
  obtain ⟨_, _, _, _, _, _, _, h⟩ := assemble_frame s e; rw [h]
@[simp] theorem assemble_pins (e : LineEvent) : (assemble e s).pins = s.pins := by
  obtain ⟨_, _, _, _, _, _, _, h⟩ := assemble_frame s e; rw [h]
@[simp] theorem assemble_inputs (e : LineEvent) : (assemble e s).inputs = s.inputs := by
  obtain ⟨_, _, _, _, _, _, _, h⟩ := assemble_frame s e; rw [h]
@[simp] theorem assemble_refclk (e : LineEvent) : (assemble e s).refclk = s.refclk := by
  obtain ⟨_, _, _, _, _, _, _, h⟩ := assemble_frame s e; rw [h]
@[simp] theorem assemble_drawCount (e : LineEvent) : (assemble e s).drawCount = s.drawCount := by
  obtain ⟨_, _, _, _, _, _, _, h⟩ := assemble_frame s e; rw [h]
@[simp] theorem assemble_choiceCount (e : LineEvent) : (assemble e s).choiceCount = s.choiceCount := by
  obtain ⟨_, _, _, _, _, _, _, h⟩ := assemble_frame s e; rw [h]
@[simp] theorem assemble_orderCount (e : LineEvent) : (assemble e s).orderCount = s.orderCount := by
  obtain ⟨_, _, _, _, _, _, _, h⟩ := assemble_frame s e; rw [h]
@[simp] theorem assemble_station (e : LineEvent) : (assemble e s).station = s.station := by
  obtain ⟨_, _, _, _, _, _, _, h⟩ := assemble_frame s e; rw [h]
@[simp] theorem assemble_line (e : LineEvent) : (assemble e s).line = s.line := by
  obtain ⟨_, _, _, _, _, _, _, h⟩ := assemble_frame s e; rw [h]
@[simp] theorem assemble_decoder (e : LineEvent) : (assemble e s).decoder = s.decoder := by
  obtain ⟨_, _, _, _, _, _, _, h⟩ := assemble_frame s e; rw [h]
@[simp] theorem assemble_history (e : LineEvent) : (assemble e s).history = s.history := by
  obtain ⟨_, _, _, _, _, _, _, h⟩ := assemble_frame s e; rw [h]
@[simp] theorem assemble_slots (e : LineEvent) : (assemble e s).slots = s.slots := by
  obtain ⟨_, _, _, _, _, _, _, h⟩ := assemble_frame s e; rw [h]
@[simp] theorem assemble_inbox (e : LineEvent) : (assemble e s).inbox = s.inbox := by
  obtain ⟨_, _, _, _, _, _, _, h⟩ := assemble_frame s e; rw [h]
@[simp] theorem assemble_reports (e : LineEvent) : (assemble e s).reports = s.reports := by
  obtain ⟨_, _, _, _, _, _, _, h⟩ := assemble_frame s e; rw [h]
@[simp] theorem assemble_transmit (e : LineEvent) : (assemble e s).transmit = s.transmit := by
  obtain ⟨_, _, _, _, _, _, _, h⟩ := assemble_frame s e; rw [h]
@[simp] theorem assemble_port (e : LineEvent) : (assemble e s).port = s.port := by
  obtain ⟨_, _, _, _, _, _, _, h⟩ := assemble_frame s e; rw [h]

/-- What `setMedium` can change. -/
theorem setMedium_frame (m : Medium) :
    ∃ x0 x1 x2 x3 x4 x5 x6 x7, setMedium m s = { s with drawCount := x0, counters := x1, line := x2, slots := x3, relays := x4, outbox := x5, reports := x6, transmit := x7 } := by
  unfold setMedium
  repeat' (first | split | dsimp only)
  all_goals
    (repeat' apply Exists.intro)
    apply State.ext <;> first | with_reducible rfl | simp
@[simp] theorem setMedium_pending (m : Medium) : (setMedium m s).pending = s.pending := by
  obtain ⟨_, _, _, _, _, _, _, _, h⟩ := setMedium_frame s m; rw [h]
@[simp] theorem setMedium_pins (m : Medium) : (setMedium m s).pins = s.pins := by
  obtain ⟨_, _, _, _, _, _, _, _, h⟩ := setMedium_frame s m; rw [h]
@[simp] theorem setMedium_inputs (m : Medium) : (setMedium m s).inputs = s.inputs := by
  obtain ⟨_, _, _, _, _, _, _, _, h⟩ := setMedium_frame s m; rw [h]
@[simp] theorem setMedium_refclk (m : Medium) : (setMedium m s).refclk = s.refclk := by
  obtain ⟨_, _, _, _, _, _, _, _, h⟩ := setMedium_frame s m; rw [h]
@[simp] theorem setMedium_choiceCount (m : Medium) : (setMedium m s).choiceCount = s.choiceCount := by
  obtain ⟨_, _, _, _, _, _, _, _, h⟩ := setMedium_frame s m; rw [h]
@[simp] theorem setMedium_orderCount (m : Medium) : (setMedium m s).orderCount = s.orderCount := by
  obtain ⟨_, _, _, _, _, _, _, _, h⟩ := setMedium_frame s m; rw [h]
@[simp] theorem setMedium_station (m : Medium) : (setMedium m s).station = s.station := by
  obtain ⟨_, _, _, _, _, _, _, _, h⟩ := setMedium_frame s m; rw [h]
@[simp] theorem setMedium_flags (m : Medium) : (setMedium m s).flags = s.flags := by
  obtain ⟨_, _, _, _, _, _, _, _, h⟩ := setMedium_frame s m; rw [h]
@[simp] theorem setMedium_assembler (m : Medium) : (setMedium m s).assembler = s.assembler := by
  obtain ⟨_, _, _, _, _, _, _, _, h⟩ := setMedium_frame s m; rw [h]
@[simp] theorem setMedium_table (m : Medium) : (setMedium m s).table = s.table := by
  obtain ⟨_, _, _, _, _, _, _, _, h⟩ := setMedium_frame s m; rw [h]
@[simp] theorem setMedium_decodeQueue (m : Medium) : (setMedium m s).decodeQueue = s.decodeQueue := by
  obtain ⟨_, _, _, _, _, _, _, _, h⟩ := setMedium_frame s m; rw [h]
@[simp] theorem setMedium_decoder (m : Medium) : (setMedium m s).decoder = s.decoder := by
  obtain ⟨_, _, _, _, _, _, _, _, h⟩ := setMedium_frame s m; rw [h]
@[simp] theorem setMedium_history (m : Medium) : (setMedium m s).history = s.history := by
  obtain ⟨_, _, _, _, _, _, _, _, h⟩ := setMedium_frame s m; rw [h]
@[simp] theorem setMedium_inbox (m : Medium) : (setMedium m s).inbox = s.inbox := by
  obtain ⟨_, _, _, _, _, _, _, _, h⟩ := setMedium_frame s m; rw [h]
@[simp] theorem setMedium_port (m : Medium) : (setMedium m s).port = s.port := by
  obtain ⟨_, _, _, _, _, _, _, _, h⟩ := setMedium_frame s m; rw [h]

/-- What `risingEdge` can change. -/
theorem risingEdge_frame :
    ∃ x0 x1 x2 x3 x4 x5 x6 x7 x8 x9, risingEdge s = { s with refclk := x0, drawCount := x1, station := x2, counters := x3, line := x4, slots := x5, relays := x6, outbox := x7, reports := x8, transmit := x9 } := by
  unfold risingEdge
  repeat' (first | split | dsimp only)
  all_goals
    (repeat' apply Exists.intro)
    apply State.ext <;> first | with_reducible rfl | simp
@[simp] theorem risingEdge_pending : (risingEdge s).pending = s.pending := by
  obtain ⟨_, _, _, _, _, _, _, _, _, _, h⟩ := risingEdge_frame s; rw [h]
@[simp] theorem risingEdge_pins : (risingEdge s).pins = s.pins := by
  obtain ⟨_, _, _, _, _, _, _, _, _, _, h⟩ := risingEdge_frame s; rw [h]
@[simp] theorem risingEdge_inputs : (risingEdge s).inputs = s.inputs := by
  obtain ⟨_, _, _, _, _, _, _, _, _, _, h⟩ := risingEdge_frame s; rw [h]
@[simp] theorem risingEdge_choiceCount : (risingEdge s).choiceCount = s.choiceCount := by
  obtain ⟨_, _, _, _, _, _, _, _, _, _, h⟩ := risingEdge_frame s; rw [h]
@[simp] theorem risingEdge_orderCount : (risingEdge s).orderCount = s.orderCount := by
  obtain ⟨_, _, _, _, _, _, _, _, _, _, h⟩ := risingEdge_frame s; rw [h]
@[simp] theorem risingEdge_flags : (risingEdge s).flags = s.flags := by
  obtain ⟨_, _, _, _, _, _, _, _, _, _, h⟩ := risingEdge_frame s; rw [h]
@[simp] theorem risingEdge_assembler : (risingEdge s).assembler = s.assembler := by
  obtain ⟨_, _, _, _, _, _, _, _, _, _, h⟩ := risingEdge_frame s; rw [h]
@[simp] theorem risingEdge_table : (risingEdge s).table = s.table := by
  obtain ⟨_, _, _, _, _, _, _, _, _, _, h⟩ := risingEdge_frame s; rw [h]
@[simp] theorem risingEdge_decodeQueue : (risingEdge s).decodeQueue = s.decodeQueue := by
  obtain ⟨_, _, _, _, _, _, _, _, _, _, h⟩ := risingEdge_frame s; rw [h]
@[simp] theorem risingEdge_decoder : (risingEdge s).decoder = s.decoder := by
  obtain ⟨_, _, _, _, _, _, _, _, _, _, h⟩ := risingEdge_frame s; rw [h]
@[simp] theorem risingEdge_history : (risingEdge s).history = s.history := by
  obtain ⟨_, _, _, _, _, _, _, _, _, _, h⟩ := risingEdge_frame s; rw [h]
@[simp] theorem risingEdge_inbox : (risingEdge s).inbox = s.inbox := by
  obtain ⟨_, _, _, _, _, _, _, _, _, _, h⟩ := risingEdge_frame s; rw [h]
@[simp] theorem risingEdge_port : (risingEdge s).port = s.port := by
  obtain ⟨_, _, _, _, _, _, _, _, _, _, h⟩ := risingEdge_frame s; rw [h]

/-- What `fallingEdge` can change. -/
theorem fallingEdge_frame (l : Nat) :
    ∃ x0 x1 x2 x3 x4 x5 x6 x7 x8 x9 x10, fallingEdge l s = { s with refclk := x0, station := x1, counters := x2, flags := x3, line := x4, assembler := x5, table := x6, decodeQueue := x7, relays := x8, outbox := x9, transmit := x10 } := by
  unfold fallingEdge
  repeat' (first | split | dsimp only)
  all_goals
    (repeat' apply Exists.intro)
    apply State.ext <;> first | with_reducible rfl | simp
@[simp] theorem fallingEdge_pending (l : Nat) : (fallingEdge l s).pending = s.pending := by
  obtain ⟨_, _, _, _, _, _, _, _, _, _, _, h⟩ := fallingEdge_frame s l; rw [h]
@[simp] theorem fallingEdge_pins (l : Nat) : (fallingEdge l s).pins = s.pins := by
  obtain ⟨_, _, _, _, _, _, _, _, _, _, _, h⟩ := fallingEdge_frame s l; rw [h]
@[simp] theorem fallingEdge_inputs (l : Nat) : (fallingEdge l s).inputs = s.inputs := by
  obtain ⟨_, _, _, _, _, _, _, _, _, _, _, h⟩ := fallingEdge_frame s l; rw [h]
@[simp] theorem fallingEdge_drawCount (l : Nat) : (fallingEdge l s).drawCount = s.drawCount := by
  obtain ⟨_, _, _, _, _, _, _, _, _, _, _, h⟩ := fallingEdge_frame s l; rw [h]
@[simp] theorem fallingEdge_choiceCount (l : Nat) : (fallingEdge l s).choiceCount = s.choiceCount := by
  obtain ⟨_, _, _, _, _, _, _, _, _, _, _, h⟩ := fallingEdge_frame s l; rw [h]
@[simp] theorem fallingEdge_orderCount (l : Nat) : (fallingEdge l s).orderCount = s.orderCount := by
  obtain ⟨_, _, _, _, _, _, _, _, _, _, _, h⟩ := fallingEdge_frame s l; rw [h]
@[simp] theorem fallingEdge_decoder (l : Nat) : (fallingEdge l s).decoder = s.decoder := by
  obtain ⟨_, _, _, _, _, _, _, _, _, _, _, h⟩ := fallingEdge_frame s l; rw [h]
@[simp] theorem fallingEdge_history (l : Nat) : (fallingEdge l s).history = s.history := by
  obtain ⟨_, _, _, _, _, _, _, _, _, _, _, h⟩ := fallingEdge_frame s l; rw [h]
@[simp] theorem fallingEdge_slots (l : Nat) : (fallingEdge l s).slots = s.slots := by
  obtain ⟨_, _, _, _, _, _, _, _, _, _, _, h⟩ := fallingEdge_frame s l; rw [h]
@[simp] theorem fallingEdge_inbox (l : Nat) : (fallingEdge l s).inbox = s.inbox := by
  obtain ⟨_, _, _, _, _, _, _, _, _, _, _, h⟩ := fallingEdge_frame s l; rw [h]
@[simp] theorem fallingEdge_reports (l : Nat) : (fallingEdge l s).reports = s.reports := by
  obtain ⟨_, _, _, _, _, _, _, _, _, _, _, h⟩ := fallingEdge_frame s l; rw [h]
@[simp] theorem fallingEdge_port (l : Nat) : (fallingEdge l s).port = s.port := by
  obtain ⟨_, _, _, _, _, _, _, _, _, _, _, h⟩ := fallingEdge_frame s l; rw [h]

/-- What `nextCheck` can change. -/
theorem nextCheck_frame :
    ∃ x0 x1 x2 x3 x4 x5 x6, nextCheck s = { s with drawCount := x0, counters := x1, slots := x2, relays := x3, outbox := x4, reports := x5, transmit := x6 } := by
  unfold nextCheck
  repeat' (first | split | dsimp only)
  all_goals
    (repeat' apply Exists.intro)
    apply State.ext <;> first | with_reducible rfl | simp
@[simp] theorem nextCheck_pending : (nextCheck s).pending = s.pending := by
  obtain ⟨_, _, _, _, _, _, _, h⟩ := nextCheck_frame s; rw [h]
@[simp] theorem nextCheck_pins : (nextCheck s).pins = s.pins := by
  obtain ⟨_, _, _, _, _, _, _, h⟩ := nextCheck_frame s; rw [h]
@[simp] theorem nextCheck_inputs : (nextCheck s).inputs = s.inputs := by
  obtain ⟨_, _, _, _, _, _, _, h⟩ := nextCheck_frame s; rw [h]
@[simp] theorem nextCheck_refclk : (nextCheck s).refclk = s.refclk := by
  obtain ⟨_, _, _, _, _, _, _, h⟩ := nextCheck_frame s; rw [h]
@[simp] theorem nextCheck_choiceCount : (nextCheck s).choiceCount = s.choiceCount := by
  obtain ⟨_, _, _, _, _, _, _, h⟩ := nextCheck_frame s; rw [h]
@[simp] theorem nextCheck_orderCount : (nextCheck s).orderCount = s.orderCount := by
  obtain ⟨_, _, _, _, _, _, _, h⟩ := nextCheck_frame s; rw [h]
@[simp] theorem nextCheck_station : (nextCheck s).station = s.station := by
  obtain ⟨_, _, _, _, _, _, _, h⟩ := nextCheck_frame s; rw [h]
@[simp] theorem nextCheck_flags : (nextCheck s).flags = s.flags := by
  obtain ⟨_, _, _, _, _, _, _, h⟩ := nextCheck_frame s; rw [h]
@[simp] theorem nextCheck_line : (nextCheck s).line = s.line := by
  obtain ⟨_, _, _, _, _, _, _, h⟩ := nextCheck_frame s; rw [h]
@[simp] theorem nextCheck_assembler : (nextCheck s).assembler = s.assembler := by
  obtain ⟨_, _, _, _, _, _, _, h⟩ := nextCheck_frame s; rw [h]
@[simp] theorem nextCheck_table : (nextCheck s).table = s.table := by
  obtain ⟨_, _, _, _, _, _, _, h⟩ := nextCheck_frame s; rw [h]
@[simp] theorem nextCheck_decodeQueue : (nextCheck s).decodeQueue = s.decodeQueue := by
  obtain ⟨_, _, _, _, _, _, _, h⟩ := nextCheck_frame s; rw [h]
@[simp] theorem nextCheck_decoder : (nextCheck s).decoder = s.decoder := by
  obtain ⟨_, _, _, _, _, _, _, h⟩ := nextCheck_frame s; rw [h]
@[simp] theorem nextCheck_history : (nextCheck s).history = s.history := by
  obtain ⟨_, _, _, _, _, _, _, h⟩ := nextCheck_frame s; rw [h]
@[simp] theorem nextCheck_inbox : (nextCheck s).inbox = s.inbox := by
  obtain ⟨_, _, _, _, _, _, _, h⟩ := nextCheck_frame s; rw [h]
@[simp] theorem nextCheck_port : (nextCheck s).port = s.port := by
  obtain ⟨_, _, _, _, _, _, _, h⟩ := nextCheck_frame s; rw [h]

/-- What `takeChecks` can change. -/
theorem takeChecks_frame (n : Nat) :
    ∃ x0 x1 x2 x3 x4 x5 x6, takeChecks n s = { s with drawCount := x0, counters := x1, slots := x2, relays := x3, outbox := x4, reports := x5, transmit := x6 } := by
  induction n generalizing s with
  | zero => exact ⟨_, _, _, _, _, _, _, rfl⟩
  | succ n ih =>
    obtain ⟨x0, x1, x2, x3, x4, x5, x6, h⟩ := ih (nextCheck s)
    refine ⟨x0, x1, x2, x3, x4, x5, x6, h.trans ?_⟩
    apply State.ext <;> first | with_reducible rfl | simp
@[simp] theorem takeChecks_pending (n : Nat) : (takeChecks n s).pending = s.pending := by
  obtain ⟨_, _, _, _, _, _, _, h⟩ := takeChecks_frame s n; rw [h]
@[simp] theorem takeChecks_pins (n : Nat) : (takeChecks n s).pins = s.pins := by
  obtain ⟨_, _, _, _, _, _, _, h⟩ := takeChecks_frame s n; rw [h]
@[simp] theorem takeChecks_inputs (n : Nat) : (takeChecks n s).inputs = s.inputs := by
  obtain ⟨_, _, _, _, _, _, _, h⟩ := takeChecks_frame s n; rw [h]
@[simp] theorem takeChecks_refclk (n : Nat) : (takeChecks n s).refclk = s.refclk := by
  obtain ⟨_, _, _, _, _, _, _, h⟩ := takeChecks_frame s n; rw [h]
@[simp] theorem takeChecks_choiceCount (n : Nat) : (takeChecks n s).choiceCount = s.choiceCount := by
  obtain ⟨_, _, _, _, _, _, _, h⟩ := takeChecks_frame s n; rw [h]
@[simp] theorem takeChecks_orderCount (n : Nat) : (takeChecks n s).orderCount = s.orderCount := by
  obtain ⟨_, _, _, _, _, _, _, h⟩ := takeChecks_frame s n; rw [h]
@[simp] theorem takeChecks_station (n : Nat) : (takeChecks n s).station = s.station := by
  obtain ⟨_, _, _, _, _, _, _, h⟩ := takeChecks_frame s n; rw [h]
@[simp] theorem takeChecks_flags (n : Nat) : (takeChecks n s).flags = s.flags := by
  obtain ⟨_, _, _, _, _, _, _, h⟩ := takeChecks_frame s n; rw [h]
@[simp] theorem takeChecks_line (n : Nat) : (takeChecks n s).line = s.line := by
  obtain ⟨_, _, _, _, _, _, _, h⟩ := takeChecks_frame s n; rw [h]
@[simp] theorem takeChecks_assembler (n : Nat) : (takeChecks n s).assembler = s.assembler := by
  obtain ⟨_, _, _, _, _, _, _, h⟩ := takeChecks_frame s n; rw [h]
@[simp] theorem takeChecks_table (n : Nat) : (takeChecks n s).table = s.table := by
  obtain ⟨_, _, _, _, _, _, _, h⟩ := takeChecks_frame s n; rw [h]
@[simp] theorem takeChecks_decodeQueue (n : Nat) : (takeChecks n s).decodeQueue = s.decodeQueue := by
  obtain ⟨_, _, _, _, _, _, _, h⟩ := takeChecks_frame s n; rw [h]
@[simp] theorem takeChecks_decoder (n : Nat) : (takeChecks n s).decoder = s.decoder := by
  obtain ⟨_, _, _, _, _, _, _, h⟩ := takeChecks_frame s n; rw [h]
@[simp] theorem takeChecks_history (n : Nat) : (takeChecks n s).history = s.history := by
  obtain ⟨_, _, _, _, _, _, _, h⟩ := takeChecks_frame s n; rw [h]
@[simp] theorem takeChecks_inbox (n : Nat) : (takeChecks n s).inbox = s.inbox := by
  obtain ⟨_, _, _, _, _, _, _, h⟩ := takeChecks_frame s n; rw [h]
@[simp] theorem takeChecks_port (n : Nat) : (takeChecks n s).port = s.port := by
  obtain ⟨_, _, _, _, _, _, _, h⟩ := takeChecks_frame s n; rw [h]

/-- What `silenceInBody` can change. -/
theorem silenceInBody_frame :
    ∃ x0 x1 x2 x3 x4 x5 x6 x7 x8 x9 x10 x11 x12, silenceInBody s = { s with drawCount := x0, orderCount := x1, counters := x2, flags := x3, line := x4, assembler := x5, table := x6, decodeQueue := x7, slots := x8, relays := x9, outbox := x10, reports := x11, transmit := x12 } := by
  unfold silenceInBody
  repeat' (first | split | dsimp only)
  all_goals
    (repeat' apply Exists.intro)
    apply State.ext <;> first | with_reducible rfl | simp
@[simp] theorem silenceInBody_pending : (silenceInBody s).pending = s.pending := by
  obtain ⟨_, _, _, _, _, _, _, _, _, _, _, _, _, h⟩ := silenceInBody_frame s; rw [h]
@[simp] theorem silenceInBody_pins : (silenceInBody s).pins = s.pins := by
  obtain ⟨_, _, _, _, _, _, _, _, _, _, _, _, _, h⟩ := silenceInBody_frame s; rw [h]
@[simp] theorem silenceInBody_inputs : (silenceInBody s).inputs = s.inputs := by
  obtain ⟨_, _, _, _, _, _, _, _, _, _, _, _, _, h⟩ := silenceInBody_frame s; rw [h]
@[simp] theorem silenceInBody_refclk : (silenceInBody s).refclk = s.refclk := by
  obtain ⟨_, _, _, _, _, _, _, _, _, _, _, _, _, h⟩ := silenceInBody_frame s; rw [h]
@[simp] theorem silenceInBody_choiceCount : (silenceInBody s).choiceCount = s.choiceCount := by
  obtain ⟨_, _, _, _, _, _, _, _, _, _, _, _, _, h⟩ := silenceInBody_frame s; rw [h]
@[simp] theorem silenceInBody_station : (silenceInBody s).station = s.station := by
  obtain ⟨_, _, _, _, _, _, _, _, _, _, _, _, _, h⟩ := silenceInBody_frame s; rw [h]
@[simp] theorem silenceInBody_decoder : (silenceInBody s).decoder = s.decoder := by
  obtain ⟨_, _, _, _, _, _, _, _, _, _, _, _, _, h⟩ := silenceInBody_frame s; rw [h]
@[simp] theorem silenceInBody_history : (silenceInBody s).history = s.history := by
  obtain ⟨_, _, _, _, _, _, _, _, _, _, _, _, _, h⟩ := silenceInBody_frame s; rw [h]
@[simp] theorem silenceInBody_inbox : (silenceInBody s).inbox = s.inbox := by
  obtain ⟨_, _, _, _, _, _, _, _, _, _, _, _, _, h⟩ := silenceInBody_frame s; rw [h]
@[simp] theorem silenceInBody_port : (silenceInBody s).port = s.port := by
  obtain ⟨_, _, _, _, _, _, _, _, _, _, _, _, _, h⟩ := silenceInBody_frame s; rw [h]

/-- What `endSpace` can change. -/
theorem endSpace_frame :
    ∃ x0 x1 x2 x3 x4 x5 x6 x7 x8 x9 x10 x11 x12, endSpace s = { s with drawCount := x0, orderCount := x1, counters := x2, flags := x3, line := x4, assembler := x5, table := x6, decodeQueue := x7, slots := x8, relays := x9, outbox := x10, reports := x11, transmit := x12 } := by
  unfold endSpace
  repeat' (first | split | dsimp only)
  all_goals
    (repeat' apply Exists.intro)
    apply State.ext <;> first | with_reducible rfl | simp
@[simp] theorem endSpace_pending : (endSpace s).pending = s.pending := by
  obtain ⟨_, _, _, _, _, _, _, _, _, _, _, _, _, h⟩ := endSpace_frame s; rw [h]
@[simp] theorem endSpace_pins : (endSpace s).pins = s.pins := by
  obtain ⟨_, _, _, _, _, _, _, _, _, _, _, _, _, h⟩ := endSpace_frame s; rw [h]
@[simp] theorem endSpace_inputs : (endSpace s).inputs = s.inputs := by
  obtain ⟨_, _, _, _, _, _, _, _, _, _, _, _, _, h⟩ := endSpace_frame s; rw [h]
@[simp] theorem endSpace_refclk : (endSpace s).refclk = s.refclk := by
  obtain ⟨_, _, _, _, _, _, _, _, _, _, _, _, _, h⟩ := endSpace_frame s; rw [h]
@[simp] theorem endSpace_choiceCount : (endSpace s).choiceCount = s.choiceCount := by
  obtain ⟨_, _, _, _, _, _, _, _, _, _, _, _, _, h⟩ := endSpace_frame s; rw [h]
@[simp] theorem endSpace_station : (endSpace s).station = s.station := by
  obtain ⟨_, _, _, _, _, _, _, _, _, _, _, _, _, h⟩ := endSpace_frame s; rw [h]
@[simp] theorem endSpace_decoder : (endSpace s).decoder = s.decoder := by
  obtain ⟨_, _, _, _, _, _, _, _, _, _, _, _, _, h⟩ := endSpace_frame s; rw [h]
@[simp] theorem endSpace_history : (endSpace s).history = s.history := by
  obtain ⟨_, _, _, _, _, _, _, _, _, _, _, _, _, h⟩ := endSpace_frame s; rw [h]
@[simp] theorem endSpace_inbox : (endSpace s).inbox = s.inbox := by
  obtain ⟨_, _, _, _, _, _, _, _, _, _, _, _, _, h⟩ := endSpace_frame s; rw [h]
@[simp] theorem endSpace_port : (endSpace s).port = s.port := by
  obtain ⟨_, _, _, _, _, _, _, _, _, _, _, _, _, h⟩ := endSpace_frame s; rw [h]

/-- What `silence` can change. -/
theorem silence_frame :
    ∃ x0 x1 x2 x3 x4 x5 x6 x7 x8 x9 x10 x11 x12 x13 x14, silence s = { s with refclk := x0, drawCount := x1, orderCount := x2, station := x3, counters := x4, flags := x5, line := x6, assembler := x7, table := x8, decodeQueue := x9, slots := x10, relays := x11, outbox := x12, reports := x13, transmit := x14 } := by
  unfold silence
  repeat' (first | split | dsimp only)
  all_goals
    (repeat' apply Exists.intro)
    apply State.ext <;> first | with_reducible rfl | simp
@[simp] theorem silence_pending : (silence s).pending = s.pending := by
  obtain ⟨_, _, _, _, _, _, _, _, _, _, _, _, _, _, _, h⟩ := silence_frame s; rw [h]
@[simp] theorem silence_pins : (silence s).pins = s.pins := by
  obtain ⟨_, _, _, _, _, _, _, _, _, _, _, _, _, _, _, h⟩ := silence_frame s; rw [h]
@[simp] theorem silence_inputs : (silence s).inputs = s.inputs := by
  obtain ⟨_, _, _, _, _, _, _, _, _, _, _, _, _, _, _, h⟩ := silence_frame s; rw [h]
@[simp] theorem silence_choiceCount : (silence s).choiceCount = s.choiceCount := by
  obtain ⟨_, _, _, _, _, _, _, _, _, _, _, _, _, _, _, h⟩ := silence_frame s; rw [h]
@[simp] theorem silence_decoder : (silence s).decoder = s.decoder := by
  obtain ⟨_, _, _, _, _, _, _, _, _, _, _, _, _, _, _, h⟩ := silence_frame s; rw [h]
@[simp] theorem silence_history : (silence s).history = s.history := by
  obtain ⟨_, _, _, _, _, _, _, _, _, _, _, _, _, _, _, h⟩ := silence_frame s; rw [h]
@[simp] theorem silence_inbox : (silence s).inbox = s.inbox := by
  obtain ⟨_, _, _, _, _, _, _, _, _, _, _, _, _, _, _, h⟩ := silence_frame s; rw [h]
@[simp] theorem silence_port : (silence s).port = s.port := by
  obtain ⟨_, _, _, _, _, _, _, _, _, _, _, _, _, _, _, h⟩ := silence_frame s; rw [h]

/-- What `startTransmission` can change. -/
theorem startTransmission_frame (g : Granted) (h : List Byte) (b : BodyCheck) :
    ∃ x0 x1 x2 x3 x4 x5 x6 x7, startTransmission g h b s = { s with drawCount := x0, counters := x1, line := x2, slots := x3, relays := x4, outbox := x5, reports := x6, transmit := x7 } := by
  unfold startTransmission
  repeat' (first | split | dsimp only)
  all_goals
    (repeat' apply Exists.intro)
    apply State.ext <;> first | with_reducible rfl | simp
@[simp] theorem startTransmission_pending (g : Granted) (h : List Byte) (b : BodyCheck) : (startTransmission g h b s).pending = s.pending := by
  obtain ⟨_, _, _, _, _, _, _, _, h⟩ := startTransmission_frame s g h b; rw [h]
@[simp] theorem startTransmission_pins (g : Granted) (h : List Byte) (b : BodyCheck) : (startTransmission g h b s).pins = s.pins := by
  obtain ⟨_, _, _, _, _, _, _, _, h⟩ := startTransmission_frame s g h b; rw [h]
@[simp] theorem startTransmission_inputs (g : Granted) (h : List Byte) (b : BodyCheck) : (startTransmission g h b s).inputs = s.inputs := by
  obtain ⟨_, _, _, _, _, _, _, _, h⟩ := startTransmission_frame s g h b; rw [h]
@[simp] theorem startTransmission_refclk (g : Granted) (h : List Byte) (b : BodyCheck) : (startTransmission g h b s).refclk = s.refclk := by
  obtain ⟨_, _, _, _, _, _, _, _, h⟩ := startTransmission_frame s g h b; rw [h]
@[simp] theorem startTransmission_choiceCount (g : Granted) (h : List Byte) (b : BodyCheck) : (startTransmission g h b s).choiceCount = s.choiceCount := by
  obtain ⟨_, _, _, _, _, _, _, _, h⟩ := startTransmission_frame s g h b; rw [h]
@[simp] theorem startTransmission_orderCount (g : Granted) (h : List Byte) (b : BodyCheck) : (startTransmission g h b s).orderCount = s.orderCount := by
  obtain ⟨_, _, _, _, _, _, _, _, h⟩ := startTransmission_frame s g h b; rw [h]
@[simp] theorem startTransmission_station (g : Granted) (h : List Byte) (b : BodyCheck) : (startTransmission g h b s).station = s.station := by
  obtain ⟨_, _, _, _, _, _, _, _, h⟩ := startTransmission_frame s g h b; rw [h]
@[simp] theorem startTransmission_flags (g : Granted) (h : List Byte) (b : BodyCheck) : (startTransmission g h b s).flags = s.flags := by
  obtain ⟨_, _, _, _, _, _, _, _, h⟩ := startTransmission_frame s g h b; rw [h]
@[simp] theorem startTransmission_assembler (g : Granted) (h : List Byte) (b : BodyCheck) : (startTransmission g h b s).assembler = s.assembler := by
  obtain ⟨_, _, _, _, _, _, _, _, h⟩ := startTransmission_frame s g h b; rw [h]
@[simp] theorem startTransmission_table (g : Granted) (h : List Byte) (b : BodyCheck) : (startTransmission g h b s).table = s.table := by
  obtain ⟨_, _, _, _, _, _, _, _, h⟩ := startTransmission_frame s g h b; rw [h]
@[simp] theorem startTransmission_decodeQueue (g : Granted) (h : List Byte) (b : BodyCheck) : (startTransmission g h b s).decodeQueue = s.decodeQueue := by
  obtain ⟨_, _, _, _, _, _, _, _, h⟩ := startTransmission_frame s g h b; rw [h]
@[simp] theorem startTransmission_decoder (g : Granted) (h : List Byte) (b : BodyCheck) : (startTransmission g h b s).decoder = s.decoder := by
  obtain ⟨_, _, _, _, _, _, _, _, h⟩ := startTransmission_frame s g h b; rw [h]
@[simp] theorem startTransmission_history (g : Granted) (h : List Byte) (b : BodyCheck) : (startTransmission g h b s).history = s.history := by
  obtain ⟨_, _, _, _, _, _, _, _, h⟩ := startTransmission_frame s g h b; rw [h]
@[simp] theorem startTransmission_inbox (g : Granted) (h : List Byte) (b : BodyCheck) : (startTransmission g h b s).inbox = s.inbox := by
  obtain ⟨_, _, _, _, _, _, _, _, h⟩ := startTransmission_frame s g h b; rw [h]
@[simp] theorem startTransmission_port (g : Granted) (h : List Byte) (b : BodyCheck) : (startTransmission g h b s).port = s.port := by
  obtain ⟨_, _, _, _, _, _, _, _, h⟩ := startTransmission_frame s g h b; rw [h]

/-- What `refuseHandOver` can change. -/
theorem refuseHandOver_frame (g : Granted) :
    ∃ x0 x1 x2 x3 x4 x5 x6, refuseHandOver g s = { s with drawCount := x0, counters := x1, slots := x2, relays := x3, outbox := x4, reports := x5, transmit := x6 } := by
  unfold refuseHandOver
  repeat' (first | split | dsimp only)
  all_goals
    (repeat' apply Exists.intro)
    apply State.ext <;> first | with_reducible rfl | simp
@[simp] theorem refuseHandOver_pending (g : Granted) : (refuseHandOver g s).pending = s.pending := by
  obtain ⟨_, _, _, _, _, _, _, h⟩ := refuseHandOver_frame s g; rw [h]
@[simp] theorem refuseHandOver_pins (g : Granted) : (refuseHandOver g s).pins = s.pins := by
  obtain ⟨_, _, _, _, _, _, _, h⟩ := refuseHandOver_frame s g; rw [h]
@[simp] theorem refuseHandOver_inputs (g : Granted) : (refuseHandOver g s).inputs = s.inputs := by
  obtain ⟨_, _, _, _, _, _, _, h⟩ := refuseHandOver_frame s g; rw [h]
@[simp] theorem refuseHandOver_refclk (g : Granted) : (refuseHandOver g s).refclk = s.refclk := by
  obtain ⟨_, _, _, _, _, _, _, h⟩ := refuseHandOver_frame s g; rw [h]
@[simp] theorem refuseHandOver_choiceCount (g : Granted) : (refuseHandOver g s).choiceCount = s.choiceCount := by
  obtain ⟨_, _, _, _, _, _, _, h⟩ := refuseHandOver_frame s g; rw [h]
@[simp] theorem refuseHandOver_orderCount (g : Granted) : (refuseHandOver g s).orderCount = s.orderCount := by
  obtain ⟨_, _, _, _, _, _, _, h⟩ := refuseHandOver_frame s g; rw [h]
@[simp] theorem refuseHandOver_station (g : Granted) : (refuseHandOver g s).station = s.station := by
  obtain ⟨_, _, _, _, _, _, _, h⟩ := refuseHandOver_frame s g; rw [h]
@[simp] theorem refuseHandOver_flags (g : Granted) : (refuseHandOver g s).flags = s.flags := by
  obtain ⟨_, _, _, _, _, _, _, h⟩ := refuseHandOver_frame s g; rw [h]
@[simp] theorem refuseHandOver_line (g : Granted) : (refuseHandOver g s).line = s.line := by
  obtain ⟨_, _, _, _, _, _, _, h⟩ := refuseHandOver_frame s g; rw [h]
@[simp] theorem refuseHandOver_assembler (g : Granted) : (refuseHandOver g s).assembler = s.assembler := by
  obtain ⟨_, _, _, _, _, _, _, h⟩ := refuseHandOver_frame s g; rw [h]
@[simp] theorem refuseHandOver_table (g : Granted) : (refuseHandOver g s).table = s.table := by
  obtain ⟨_, _, _, _, _, _, _, h⟩ := refuseHandOver_frame s g; rw [h]
@[simp] theorem refuseHandOver_decodeQueue (g : Granted) : (refuseHandOver g s).decodeQueue = s.decodeQueue := by
  obtain ⟨_, _, _, _, _, _, _, h⟩ := refuseHandOver_frame s g; rw [h]
@[simp] theorem refuseHandOver_decoder (g : Granted) : (refuseHandOver g s).decoder = s.decoder := by
  obtain ⟨_, _, _, _, _, _, _, h⟩ := refuseHandOver_frame s g; rw [h]
@[simp] theorem refuseHandOver_history (g : Granted) : (refuseHandOver g s).history = s.history := by
  obtain ⟨_, _, _, _, _, _, _, h⟩ := refuseHandOver_frame s g; rw [h]
@[simp] theorem refuseHandOver_inbox (g : Granted) : (refuseHandOver g s).inbox = s.inbox := by
  obtain ⟨_, _, _, _, _, _, _, h⟩ := refuseHandOver_frame s g; rw [h]
@[simp] theorem refuseHandOver_port (g : Granted) : (refuseHandOver g s).port = s.port := by
  obtain ⟨_, _, _, _, _, _, _, h⟩ := refuseHandOver_frame s g; rw [h]

/-- What `handOver` can change. -/
theorem handOver_frame :
    ∃ x0 x1 x2 x3 x4 x5 x6 x7, handOver s = { s with drawCount := x0, counters := x1, line := x2, slots := x3, relays := x4, outbox := x5, reports := x6, transmit := x7 } := by
  unfold handOver
  repeat' (first | split | dsimp only)
  all_goals
    (repeat' apply Exists.intro)
    apply State.ext <;> first | with_reducible rfl | simp
@[simp] theorem handOver_pending : (handOver s).pending = s.pending := by
  obtain ⟨_, _, _, _, _, _, _, _, h⟩ := handOver_frame s; rw [h]
@[simp] theorem handOver_pins : (handOver s).pins = s.pins := by
  obtain ⟨_, _, _, _, _, _, _, _, h⟩ := handOver_frame s; rw [h]
@[simp] theorem handOver_inputs : (handOver s).inputs = s.inputs := by
  obtain ⟨_, _, _, _, _, _, _, _, h⟩ := handOver_frame s; rw [h]
@[simp] theorem handOver_refclk : (handOver s).refclk = s.refclk := by
  obtain ⟨_, _, _, _, _, _, _, _, h⟩ := handOver_frame s; rw [h]
@[simp] theorem handOver_choiceCount : (handOver s).choiceCount = s.choiceCount := by
  obtain ⟨_, _, _, _, _, _, _, _, h⟩ := handOver_frame s; rw [h]
@[simp] theorem handOver_orderCount : (handOver s).orderCount = s.orderCount := by
  obtain ⟨_, _, _, _, _, _, _, _, h⟩ := handOver_frame s; rw [h]
@[simp] theorem handOver_station : (handOver s).station = s.station := by
  obtain ⟨_, _, _, _, _, _, _, _, h⟩ := handOver_frame s; rw [h]
@[simp] theorem handOver_flags : (handOver s).flags = s.flags := by
  obtain ⟨_, _, _, _, _, _, _, _, h⟩ := handOver_frame s; rw [h]
@[simp] theorem handOver_assembler : (handOver s).assembler = s.assembler := by
  obtain ⟨_, _, _, _, _, _, _, _, h⟩ := handOver_frame s; rw [h]
@[simp] theorem handOver_table : (handOver s).table = s.table := by
  obtain ⟨_, _, _, _, _, _, _, _, h⟩ := handOver_frame s; rw [h]
@[simp] theorem handOver_decodeQueue : (handOver s).decodeQueue = s.decodeQueue := by
  obtain ⟨_, _, _, _, _, _, _, _, h⟩ := handOver_frame s; rw [h]
@[simp] theorem handOver_decoder : (handOver s).decoder = s.decoder := by
  obtain ⟨_, _, _, _, _, _, _, _, h⟩ := handOver_frame s; rw [h]
@[simp] theorem handOver_history : (handOver s).history = s.history := by
  obtain ⟨_, _, _, _, _, _, _, _, h⟩ := handOver_frame s; rw [h]
@[simp] theorem handOver_inbox : (handOver s).inbox = s.inbox := by
  obtain ⟨_, _, _, _, _, _, _, _, h⟩ := handOver_frame s; rw [h]
@[simp] theorem handOver_port : (handOver s).port = s.port := by
  obtain ⟨_, _, _, _, _, _, _, _, h⟩ := handOver_frame s; rw [h]

/-- What `transmissionComplete` can change. -/
theorem transmissionComplete_frame :
    ∃ x0 x1 x2 x3 x4 x5 x6 x7 x8 x9, transmissionComplete s = { s with refclk := x0, drawCount := x1, station := x2, counters := x3, line := x4, slots := x5, relays := x6, outbox := x7, reports := x8, transmit := x9 } := by
  unfold transmissionComplete
  repeat' (first | split | dsimp only)
  all_goals
    (repeat' apply Exists.intro)
    apply State.ext <;> first | with_reducible rfl | simp
@[simp] theorem transmissionComplete_pending : (transmissionComplete s).pending = s.pending := by
  obtain ⟨_, _, _, _, _, _, _, _, _, _, h⟩ := transmissionComplete_frame s; rw [h]
@[simp] theorem transmissionComplete_pins : (transmissionComplete s).pins = s.pins := by
  obtain ⟨_, _, _, _, _, _, _, _, _, _, h⟩ := transmissionComplete_frame s; rw [h]
@[simp] theorem transmissionComplete_inputs : (transmissionComplete s).inputs = s.inputs := by
  obtain ⟨_, _, _, _, _, _, _, _, _, _, h⟩ := transmissionComplete_frame s; rw [h]
@[simp] theorem transmissionComplete_choiceCount : (transmissionComplete s).choiceCount = s.choiceCount := by
  obtain ⟨_, _, _, _, _, _, _, _, _, _, h⟩ := transmissionComplete_frame s; rw [h]
@[simp] theorem transmissionComplete_orderCount : (transmissionComplete s).orderCount = s.orderCount := by
  obtain ⟨_, _, _, _, _, _, _, _, _, _, h⟩ := transmissionComplete_frame s; rw [h]
@[simp] theorem transmissionComplete_flags : (transmissionComplete s).flags = s.flags := by
  obtain ⟨_, _, _, _, _, _, _, _, _, _, h⟩ := transmissionComplete_frame s; rw [h]
@[simp] theorem transmissionComplete_assembler : (transmissionComplete s).assembler = s.assembler := by
  obtain ⟨_, _, _, _, _, _, _, _, _, _, h⟩ := transmissionComplete_frame s; rw [h]
@[simp] theorem transmissionComplete_table : (transmissionComplete s).table = s.table := by
  obtain ⟨_, _, _, _, _, _, _, _, _, _, h⟩ := transmissionComplete_frame s; rw [h]
@[simp] theorem transmissionComplete_decodeQueue : (transmissionComplete s).decodeQueue = s.decodeQueue := by
  obtain ⟨_, _, _, _, _, _, _, _, _, _, h⟩ := transmissionComplete_frame s; rw [h]
@[simp] theorem transmissionComplete_decoder : (transmissionComplete s).decoder = s.decoder := by
  obtain ⟨_, _, _, _, _, _, _, _, _, _, h⟩ := transmissionComplete_frame s; rw [h]
@[simp] theorem transmissionComplete_history : (transmissionComplete s).history = s.history := by
  obtain ⟨_, _, _, _, _, _, _, _, _, _, h⟩ := transmissionComplete_frame s; rw [h]
@[simp] theorem transmissionComplete_inbox : (transmissionComplete s).inbox = s.inbox := by
  obtain ⟨_, _, _, _, _, _, _, _, _, _, h⟩ := transmissionComplete_frame s; rw [h]
@[simp] theorem transmissionComplete_port : (transmissionComplete s).port = s.port := by
  obtain ⟨_, _, _, _, _, _, _, _, _, _, h⟩ := transmissionComplete_frame s; rw [h]

/-- What `blindingEnd` can change. -/
theorem blindingEnd_frame :
    ∃ x0 x1 x2 x3, blindingEnd s = { s with refclk := x0, station := x1, line := x2, transmit := x3 } := by
  unfold blindingEnd
  repeat' (first | split | dsimp only)
  all_goals
    (repeat' apply Exists.intro)
    apply State.ext <;> first | with_reducible rfl | simp
@[simp] theorem blindingEnd_pending : (blindingEnd s).pending = s.pending := by
  obtain ⟨_, _, _, _, h⟩ := blindingEnd_frame s; rw [h]
@[simp] theorem blindingEnd_pins : (blindingEnd s).pins = s.pins := by
  obtain ⟨_, _, _, _, h⟩ := blindingEnd_frame s; rw [h]
@[simp] theorem blindingEnd_inputs : (blindingEnd s).inputs = s.inputs := by
  obtain ⟨_, _, _, _, h⟩ := blindingEnd_frame s; rw [h]
@[simp] theorem blindingEnd_drawCount : (blindingEnd s).drawCount = s.drawCount := by
  obtain ⟨_, _, _, _, h⟩ := blindingEnd_frame s; rw [h]
@[simp] theorem blindingEnd_choiceCount : (blindingEnd s).choiceCount = s.choiceCount := by
  obtain ⟨_, _, _, _, h⟩ := blindingEnd_frame s; rw [h]
@[simp] theorem blindingEnd_orderCount : (blindingEnd s).orderCount = s.orderCount := by
  obtain ⟨_, _, _, _, h⟩ := blindingEnd_frame s; rw [h]
@[simp] theorem blindingEnd_counters : (blindingEnd s).counters = s.counters := by
  obtain ⟨_, _, _, _, h⟩ := blindingEnd_frame s; rw [h]
@[simp] theorem blindingEnd_flags : (blindingEnd s).flags = s.flags := by
  obtain ⟨_, _, _, _, h⟩ := blindingEnd_frame s; rw [h]
@[simp] theorem blindingEnd_assembler : (blindingEnd s).assembler = s.assembler := by
  obtain ⟨_, _, _, _, h⟩ := blindingEnd_frame s; rw [h]
@[simp] theorem blindingEnd_table : (blindingEnd s).table = s.table := by
  obtain ⟨_, _, _, _, h⟩ := blindingEnd_frame s; rw [h]
@[simp] theorem blindingEnd_decodeQueue : (blindingEnd s).decodeQueue = s.decodeQueue := by
  obtain ⟨_, _, _, _, h⟩ := blindingEnd_frame s; rw [h]
@[simp] theorem blindingEnd_decoder : (blindingEnd s).decoder = s.decoder := by
  obtain ⟨_, _, _, _, h⟩ := blindingEnd_frame s; rw [h]
@[simp] theorem blindingEnd_history : (blindingEnd s).history = s.history := by
  obtain ⟨_, _, _, _, h⟩ := blindingEnd_frame s; rw [h]
@[simp] theorem blindingEnd_slots : (blindingEnd s).slots = s.slots := by
  obtain ⟨_, _, _, _, h⟩ := blindingEnd_frame s; rw [h]
@[simp] theorem blindingEnd_inbox : (blindingEnd s).inbox = s.inbox := by
  obtain ⟨_, _, _, _, h⟩ := blindingEnd_frame s; rw [h]
@[simp] theorem blindingEnd_relays : (blindingEnd s).relays = s.relays := by
  obtain ⟨_, _, _, _, h⟩ := blindingEnd_frame s; rw [h]
@[simp] theorem blindingEnd_outbox : (blindingEnd s).outbox = s.outbox := by
  obtain ⟨_, _, _, _, h⟩ := blindingEnd_frame s; rw [h]
@[simp] theorem blindingEnd_reports : (blindingEnd s).reports = s.reports := by
  obtain ⟨_, _, _, _, h⟩ := blindingEnd_frame s; rw [h]
@[simp] theorem blindingEnd_port : (blindingEnd s).port = s.port := by
  obtain ⟨_, _, _, _, h⟩ := blindingEnd_frame s; rw [h]

/-- What `originHoldOffExpiry` can change. -/
theorem originHoldOffExpiry_frame (i : Nat) :
    ∃ x0 x1 x2 x3 x4, originHoldOffExpiry i s = { s with refclk := x0, station := x1, line := x2, outbox := x3, transmit := x4 } := by
  unfold originHoldOffExpiry
  repeat' (first | split | dsimp only)
  all_goals
    (repeat' apply Exists.intro)
    apply State.ext <;> first | with_reducible rfl | simp
@[simp] theorem originHoldOffExpiry_pending (i : Nat) : (originHoldOffExpiry i s).pending = s.pending := by
  obtain ⟨_, _, _, _, _, h⟩ := originHoldOffExpiry_frame s i; rw [h]
@[simp] theorem originHoldOffExpiry_pins (i : Nat) : (originHoldOffExpiry i s).pins = s.pins := by
  obtain ⟨_, _, _, _, _, h⟩ := originHoldOffExpiry_frame s i; rw [h]
@[simp] theorem originHoldOffExpiry_inputs (i : Nat) : (originHoldOffExpiry i s).inputs = s.inputs := by
  obtain ⟨_, _, _, _, _, h⟩ := originHoldOffExpiry_frame s i; rw [h]
@[simp] theorem originHoldOffExpiry_drawCount (i : Nat) : (originHoldOffExpiry i s).drawCount = s.drawCount := by
  obtain ⟨_, _, _, _, _, h⟩ := originHoldOffExpiry_frame s i; rw [h]
@[simp] theorem originHoldOffExpiry_choiceCount (i : Nat) : (originHoldOffExpiry i s).choiceCount = s.choiceCount := by
  obtain ⟨_, _, _, _, _, h⟩ := originHoldOffExpiry_frame s i; rw [h]
@[simp] theorem originHoldOffExpiry_orderCount (i : Nat) : (originHoldOffExpiry i s).orderCount = s.orderCount := by
  obtain ⟨_, _, _, _, _, h⟩ := originHoldOffExpiry_frame s i; rw [h]
@[simp] theorem originHoldOffExpiry_counters (i : Nat) : (originHoldOffExpiry i s).counters = s.counters := by
  obtain ⟨_, _, _, _, _, h⟩ := originHoldOffExpiry_frame s i; rw [h]
@[simp] theorem originHoldOffExpiry_flags (i : Nat) : (originHoldOffExpiry i s).flags = s.flags := by
  obtain ⟨_, _, _, _, _, h⟩ := originHoldOffExpiry_frame s i; rw [h]
@[simp] theorem originHoldOffExpiry_assembler (i : Nat) : (originHoldOffExpiry i s).assembler = s.assembler := by
  obtain ⟨_, _, _, _, _, h⟩ := originHoldOffExpiry_frame s i; rw [h]
@[simp] theorem originHoldOffExpiry_table (i : Nat) : (originHoldOffExpiry i s).table = s.table := by
  obtain ⟨_, _, _, _, _, h⟩ := originHoldOffExpiry_frame s i; rw [h]
@[simp] theorem originHoldOffExpiry_decodeQueue (i : Nat) : (originHoldOffExpiry i s).decodeQueue = s.decodeQueue := by
  obtain ⟨_, _, _, _, _, h⟩ := originHoldOffExpiry_frame s i; rw [h]
@[simp] theorem originHoldOffExpiry_decoder (i : Nat) : (originHoldOffExpiry i s).decoder = s.decoder := by
  obtain ⟨_, _, _, _, _, h⟩ := originHoldOffExpiry_frame s i; rw [h]
@[simp] theorem originHoldOffExpiry_history (i : Nat) : (originHoldOffExpiry i s).history = s.history := by
  obtain ⟨_, _, _, _, _, h⟩ := originHoldOffExpiry_frame s i; rw [h]
@[simp] theorem originHoldOffExpiry_slots (i : Nat) : (originHoldOffExpiry i s).slots = s.slots := by
  obtain ⟨_, _, _, _, _, h⟩ := originHoldOffExpiry_frame s i; rw [h]
@[simp] theorem originHoldOffExpiry_inbox (i : Nat) : (originHoldOffExpiry i s).inbox = s.inbox := by
  obtain ⟨_, _, _, _, _, h⟩ := originHoldOffExpiry_frame s i; rw [h]
@[simp] theorem originHoldOffExpiry_relays (i : Nat) : (originHoldOffExpiry i s).relays = s.relays := by
  obtain ⟨_, _, _, _, _, h⟩ := originHoldOffExpiry_frame s i; rw [h]
@[simp] theorem originHoldOffExpiry_reports (i : Nat) : (originHoldOffExpiry i s).reports = s.reports := by
  obtain ⟨_, _, _, _, _, h⟩ := originHoldOffExpiry_frame s i; rw [h]
@[simp] theorem originHoldOffExpiry_port (i : Nat) : (originHoldOffExpiry i s).port = s.port := by
  obtain ⟨_, _, _, _, _, h⟩ := originHoldOffExpiry_frame s i; rw [h]

/-- What `echoDeadline` can change. -/
theorem echoDeadline_frame (i : Nat) :
    ∃ x0 x1 x2 x3 x4 x5 x6, echoDeadline i s = { s with refclk := x0, station := x1, line := x2, slots := x3, outbox := x4, reports := x5, transmit := x6 } := by
  unfold echoDeadline
  repeat' (first | split | dsimp only)
  all_goals
    (repeat' apply Exists.intro)
    apply State.ext <;> first | with_reducible rfl | simp
@[simp] theorem echoDeadline_pending (i : Nat) : (echoDeadline i s).pending = s.pending := by
  obtain ⟨_, _, _, _, _, _, _, h⟩ := echoDeadline_frame s i; rw [h]
@[simp] theorem echoDeadline_pins (i : Nat) : (echoDeadline i s).pins = s.pins := by
  obtain ⟨_, _, _, _, _, _, _, h⟩ := echoDeadline_frame s i; rw [h]
@[simp] theorem echoDeadline_inputs (i : Nat) : (echoDeadline i s).inputs = s.inputs := by
  obtain ⟨_, _, _, _, _, _, _, h⟩ := echoDeadline_frame s i; rw [h]
@[simp] theorem echoDeadline_drawCount (i : Nat) : (echoDeadline i s).drawCount = s.drawCount := by
  obtain ⟨_, _, _, _, _, _, _, h⟩ := echoDeadline_frame s i; rw [h]
@[simp] theorem echoDeadline_choiceCount (i : Nat) : (echoDeadline i s).choiceCount = s.choiceCount := by
  obtain ⟨_, _, _, _, _, _, _, h⟩ := echoDeadline_frame s i; rw [h]
@[simp] theorem echoDeadline_orderCount (i : Nat) : (echoDeadline i s).orderCount = s.orderCount := by
  obtain ⟨_, _, _, _, _, _, _, h⟩ := echoDeadline_frame s i; rw [h]
@[simp] theorem echoDeadline_counters (i : Nat) : (echoDeadline i s).counters = s.counters := by
  obtain ⟨_, _, _, _, _, _, _, h⟩ := echoDeadline_frame s i; rw [h]
@[simp] theorem echoDeadline_flags (i : Nat) : (echoDeadline i s).flags = s.flags := by
  obtain ⟨_, _, _, _, _, _, _, h⟩ := echoDeadline_frame s i; rw [h]
@[simp] theorem echoDeadline_assembler (i : Nat) : (echoDeadline i s).assembler = s.assembler := by
  obtain ⟨_, _, _, _, _, _, _, h⟩ := echoDeadline_frame s i; rw [h]
@[simp] theorem echoDeadline_table (i : Nat) : (echoDeadline i s).table = s.table := by
  obtain ⟨_, _, _, _, _, _, _, h⟩ := echoDeadline_frame s i; rw [h]
@[simp] theorem echoDeadline_decodeQueue (i : Nat) : (echoDeadline i s).decodeQueue = s.decodeQueue := by
  obtain ⟨_, _, _, _, _, _, _, h⟩ := echoDeadline_frame s i; rw [h]
@[simp] theorem echoDeadline_decoder (i : Nat) : (echoDeadline i s).decoder = s.decoder := by
  obtain ⟨_, _, _, _, _, _, _, h⟩ := echoDeadline_frame s i; rw [h]
@[simp] theorem echoDeadline_history (i : Nat) : (echoDeadline i s).history = s.history := by
  obtain ⟨_, _, _, _, _, _, _, h⟩ := echoDeadline_frame s i; rw [h]
@[simp] theorem echoDeadline_inbox (i : Nat) : (echoDeadline i s).inbox = s.inbox := by
  obtain ⟨_, _, _, _, _, _, _, h⟩ := echoDeadline_frame s i; rw [h]
@[simp] theorem echoDeadline_relays (i : Nat) : (echoDeadline i s).relays = s.relays := by
  obtain ⟨_, _, _, _, _, _, _, h⟩ := echoDeadline_frame s i; rw [h]
@[simp] theorem echoDeadline_port (i : Nat) : (echoDeadline i s).port = s.port := by
  obtain ⟨_, _, _, _, _, _, _, h⟩ := echoDeadline_frame s i; rw [h]

/-- What `relayHoldOffExpiry` can change. -/
theorem relayHoldOffExpiry_frame (i : Nat) :
    ∃ x0 x1 x2 x3 x4 x5 x6, relayHoldOffExpiry i s = { s with refclk := x0, station := x1, counters := x2, line := x3, slots := x4, relays := x5, transmit := x6 } := by
  unfold relayHoldOffExpiry
  repeat' (first | split | dsimp only)
  all_goals
    (repeat' apply Exists.intro)
    apply State.ext <;> first | with_reducible rfl | simp
@[simp] theorem relayHoldOffExpiry_pending (i : Nat) : (relayHoldOffExpiry i s).pending = s.pending := by
  obtain ⟨_, _, _, _, _, _, _, h⟩ := relayHoldOffExpiry_frame s i; rw [h]
@[simp] theorem relayHoldOffExpiry_pins (i : Nat) : (relayHoldOffExpiry i s).pins = s.pins := by
  obtain ⟨_, _, _, _, _, _, _, h⟩ := relayHoldOffExpiry_frame s i; rw [h]
@[simp] theorem relayHoldOffExpiry_inputs (i : Nat) : (relayHoldOffExpiry i s).inputs = s.inputs := by
  obtain ⟨_, _, _, _, _, _, _, h⟩ := relayHoldOffExpiry_frame s i; rw [h]
@[simp] theorem relayHoldOffExpiry_drawCount (i : Nat) : (relayHoldOffExpiry i s).drawCount = s.drawCount := by
  obtain ⟨_, _, _, _, _, _, _, h⟩ := relayHoldOffExpiry_frame s i; rw [h]
@[simp] theorem relayHoldOffExpiry_choiceCount (i : Nat) : (relayHoldOffExpiry i s).choiceCount = s.choiceCount := by
  obtain ⟨_, _, _, _, _, _, _, h⟩ := relayHoldOffExpiry_frame s i; rw [h]
@[simp] theorem relayHoldOffExpiry_orderCount (i : Nat) : (relayHoldOffExpiry i s).orderCount = s.orderCount := by
  obtain ⟨_, _, _, _, _, _, _, h⟩ := relayHoldOffExpiry_frame s i; rw [h]
@[simp] theorem relayHoldOffExpiry_flags (i : Nat) : (relayHoldOffExpiry i s).flags = s.flags := by
  obtain ⟨_, _, _, _, _, _, _, h⟩ := relayHoldOffExpiry_frame s i; rw [h]
@[simp] theorem relayHoldOffExpiry_assembler (i : Nat) : (relayHoldOffExpiry i s).assembler = s.assembler := by
  obtain ⟨_, _, _, _, _, _, _, h⟩ := relayHoldOffExpiry_frame s i; rw [h]
@[simp] theorem relayHoldOffExpiry_table (i : Nat) : (relayHoldOffExpiry i s).table = s.table := by
  obtain ⟨_, _, _, _, _, _, _, h⟩ := relayHoldOffExpiry_frame s i; rw [h]
@[simp] theorem relayHoldOffExpiry_decodeQueue (i : Nat) : (relayHoldOffExpiry i s).decodeQueue = s.decodeQueue := by
  obtain ⟨_, _, _, _, _, _, _, h⟩ := relayHoldOffExpiry_frame s i; rw [h]
@[simp] theorem relayHoldOffExpiry_decoder (i : Nat) : (relayHoldOffExpiry i s).decoder = s.decoder := by
  obtain ⟨_, _, _, _, _, _, _, h⟩ := relayHoldOffExpiry_frame s i; rw [h]
@[simp] theorem relayHoldOffExpiry_history (i : Nat) : (relayHoldOffExpiry i s).history = s.history := by
  obtain ⟨_, _, _, _, _, _, _, h⟩ := relayHoldOffExpiry_frame s i; rw [h]
@[simp] theorem relayHoldOffExpiry_inbox (i : Nat) : (relayHoldOffExpiry i s).inbox = s.inbox := by
  obtain ⟨_, _, _, _, _, _, _, h⟩ := relayHoldOffExpiry_frame s i; rw [h]
@[simp] theorem relayHoldOffExpiry_outbox (i : Nat) : (relayHoldOffExpiry i s).outbox = s.outbox := by
  obtain ⟨_, _, _, _, _, _, _, h⟩ := relayHoldOffExpiry_frame s i; rw [h]
@[simp] theorem relayHoldOffExpiry_reports (i : Nat) : (relayHoldOffExpiry i s).reports = s.reports := by
  obtain ⟨_, _, _, _, _, _, _, h⟩ := relayHoldOffExpiry_frame s i; rw [h]
@[simp] theorem relayHoldOffExpiry_port (i : Nat) : (relayHoldOffExpiry i s).port = s.port := by
  obtain ⟨_, _, _, _, _, _, _, h⟩ := relayHoldOffExpiry_frame s i; rw [h]

/-- What `entryDeadline` can change. -/
theorem entryDeadline_frame (i : Nat) :
    ∃ x0 x1 x2 x3 x4 x5, entryDeadline i s = { s with refclk := x0, station := x1, counters := x2, line := x3, table := x4, transmit := x5 } := by
  unfold entryDeadline
  repeat' (first | split | dsimp only)
  all_goals
    (repeat' apply Exists.intro)
    apply State.ext <;> first | with_reducible rfl | simp
@[simp] theorem entryDeadline_pending (i : Nat) : (entryDeadline i s).pending = s.pending := by
  obtain ⟨_, _, _, _, _, _, h⟩ := entryDeadline_frame s i; rw [h]
@[simp] theorem entryDeadline_pins (i : Nat) : (entryDeadline i s).pins = s.pins := by
  obtain ⟨_, _, _, _, _, _, h⟩ := entryDeadline_frame s i; rw [h]
@[simp] theorem entryDeadline_inputs (i : Nat) : (entryDeadline i s).inputs = s.inputs := by
  obtain ⟨_, _, _, _, _, _, h⟩ := entryDeadline_frame s i; rw [h]
@[simp] theorem entryDeadline_drawCount (i : Nat) : (entryDeadline i s).drawCount = s.drawCount := by
  obtain ⟨_, _, _, _, _, _, h⟩ := entryDeadline_frame s i; rw [h]
@[simp] theorem entryDeadline_choiceCount (i : Nat) : (entryDeadline i s).choiceCount = s.choiceCount := by
  obtain ⟨_, _, _, _, _, _, h⟩ := entryDeadline_frame s i; rw [h]
@[simp] theorem entryDeadline_orderCount (i : Nat) : (entryDeadline i s).orderCount = s.orderCount := by
  obtain ⟨_, _, _, _, _, _, h⟩ := entryDeadline_frame s i; rw [h]
@[simp] theorem entryDeadline_flags (i : Nat) : (entryDeadline i s).flags = s.flags := by
  obtain ⟨_, _, _, _, _, _, h⟩ := entryDeadline_frame s i; rw [h]
@[simp] theorem entryDeadline_assembler (i : Nat) : (entryDeadline i s).assembler = s.assembler := by
  obtain ⟨_, _, _, _, _, _, h⟩ := entryDeadline_frame s i; rw [h]
@[simp] theorem entryDeadline_decodeQueue (i : Nat) : (entryDeadline i s).decodeQueue = s.decodeQueue := by
  obtain ⟨_, _, _, _, _, _, h⟩ := entryDeadline_frame s i; rw [h]
@[simp] theorem entryDeadline_decoder (i : Nat) : (entryDeadline i s).decoder = s.decoder := by
  obtain ⟨_, _, _, _, _, _, h⟩ := entryDeadline_frame s i; rw [h]
@[simp] theorem entryDeadline_history (i : Nat) : (entryDeadline i s).history = s.history := by
  obtain ⟨_, _, _, _, _, _, h⟩ := entryDeadline_frame s i; rw [h]
@[simp] theorem entryDeadline_slots (i : Nat) : (entryDeadline i s).slots = s.slots := by
  obtain ⟨_, _, _, _, _, _, h⟩ := entryDeadline_frame s i; rw [h]
@[simp] theorem entryDeadline_inbox (i : Nat) : (entryDeadline i s).inbox = s.inbox := by
  obtain ⟨_, _, _, _, _, _, h⟩ := entryDeadline_frame s i; rw [h]
@[simp] theorem entryDeadline_relays (i : Nat) : (entryDeadline i s).relays = s.relays := by
  obtain ⟨_, _, _, _, _, _, h⟩ := entryDeadline_frame s i; rw [h]
@[simp] theorem entryDeadline_outbox (i : Nat) : (entryDeadline i s).outbox = s.outbox := by
  obtain ⟨_, _, _, _, _, _, h⟩ := entryDeadline_frame s i; rw [h]
@[simp] theorem entryDeadline_reports (i : Nat) : (entryDeadline i s).reports = s.reports := by
  obtain ⟨_, _, _, _, _, _, h⟩ := entryDeadline_frame s i; rw [h]
@[simp] theorem entryDeadline_port (i : Nat) : (entryDeadline i s).port = s.port := by
  obtain ⟨_, _, _, _, _, _, h⟩ := entryDeadline_frame s i; rw [h]

/-- What `listenExpiry` can change. -/
theorem listenExpiry_frame :
    ∃ x0 x1 x2 x3 x4, listenExpiry s = { s with refclk := x0, station := x1, line := x2, outbox := x3, transmit := x4 } := by
  unfold listenExpiry
  repeat' (first | split | dsimp only)
  all_goals
    (repeat' apply Exists.intro)
    apply State.ext <;> first | with_reducible rfl | simp
@[simp] theorem listenExpiry_pending : (listenExpiry s).pending = s.pending := by
  obtain ⟨_, _, _, _, _, h⟩ := listenExpiry_frame s; rw [h]
@[simp] theorem listenExpiry_pins : (listenExpiry s).pins = s.pins := by
  obtain ⟨_, _, _, _, _, h⟩ := listenExpiry_frame s; rw [h]
@[simp] theorem listenExpiry_inputs : (listenExpiry s).inputs = s.inputs := by
  obtain ⟨_, _, _, _, _, h⟩ := listenExpiry_frame s; rw [h]
@[simp] theorem listenExpiry_drawCount : (listenExpiry s).drawCount = s.drawCount := by
  obtain ⟨_, _, _, _, _, h⟩ := listenExpiry_frame s; rw [h]
@[simp] theorem listenExpiry_choiceCount : (listenExpiry s).choiceCount = s.choiceCount := by
  obtain ⟨_, _, _, _, _, h⟩ := listenExpiry_frame s; rw [h]
@[simp] theorem listenExpiry_orderCount : (listenExpiry s).orderCount = s.orderCount := by
  obtain ⟨_, _, _, _, _, h⟩ := listenExpiry_frame s; rw [h]
@[simp] theorem listenExpiry_counters : (listenExpiry s).counters = s.counters := by
  obtain ⟨_, _, _, _, _, h⟩ := listenExpiry_frame s; rw [h]
@[simp] theorem listenExpiry_flags : (listenExpiry s).flags = s.flags := by
  obtain ⟨_, _, _, _, _, h⟩ := listenExpiry_frame s; rw [h]
@[simp] theorem listenExpiry_assembler : (listenExpiry s).assembler = s.assembler := by
  obtain ⟨_, _, _, _, _, h⟩ := listenExpiry_frame s; rw [h]
@[simp] theorem listenExpiry_table : (listenExpiry s).table = s.table := by
  obtain ⟨_, _, _, _, _, h⟩ := listenExpiry_frame s; rw [h]
@[simp] theorem listenExpiry_decodeQueue : (listenExpiry s).decodeQueue = s.decodeQueue := by
  obtain ⟨_, _, _, _, _, h⟩ := listenExpiry_frame s; rw [h]
@[simp] theorem listenExpiry_decoder : (listenExpiry s).decoder = s.decoder := by
  obtain ⟨_, _, _, _, _, h⟩ := listenExpiry_frame s; rw [h]
@[simp] theorem listenExpiry_history : (listenExpiry s).history = s.history := by
  obtain ⟨_, _, _, _, _, h⟩ := listenExpiry_frame s; rw [h]
@[simp] theorem listenExpiry_slots : (listenExpiry s).slots = s.slots := by
  obtain ⟨_, _, _, _, _, h⟩ := listenExpiry_frame s; rw [h]
@[simp] theorem listenExpiry_inbox : (listenExpiry s).inbox = s.inbox := by
  obtain ⟨_, _, _, _, _, h⟩ := listenExpiry_frame s; rw [h]
@[simp] theorem listenExpiry_relays : (listenExpiry s).relays = s.relays := by
  obtain ⟨_, _, _, _, _, h⟩ := listenExpiry_frame s; rw [h]
@[simp] theorem listenExpiry_reports : (listenExpiry s).reports = s.reports := by
  obtain ⟨_, _, _, _, _, h⟩ := listenExpiry_frame s; rw [h]
@[simp] theorem listenExpiry_port : (listenExpiry s).port = s.port := by
  obtain ⟨_, _, _, _, _, h⟩ := listenExpiry_frame s; rw [h]

/-- What `configureStation` can change. -/
theorem configureStation_frame (c : ConfigRecord) :
    ∃ x0 x1, configureStation c s = { s with station := x0, line := x1 } := by
  unfold configureStation
  repeat' (first | split | dsimp only)
  all_goals
    (repeat' apply Exists.intro)
    apply State.ext <;> first | with_reducible rfl | simp
@[simp] theorem configureStation_pending (c : ConfigRecord) : (configureStation c s).pending = s.pending := by
  obtain ⟨_, _, h⟩ := configureStation_frame s c; rw [h]
@[simp] theorem configureStation_pins (c : ConfigRecord) : (configureStation c s).pins = s.pins := by
  obtain ⟨_, _, h⟩ := configureStation_frame s c; rw [h]
@[simp] theorem configureStation_inputs (c : ConfigRecord) : (configureStation c s).inputs = s.inputs := by
  obtain ⟨_, _, h⟩ := configureStation_frame s c; rw [h]
@[simp] theorem configureStation_refclk (c : ConfigRecord) : (configureStation c s).refclk = s.refclk := by
  obtain ⟨_, _, h⟩ := configureStation_frame s c; rw [h]
@[simp] theorem configureStation_drawCount (c : ConfigRecord) : (configureStation c s).drawCount = s.drawCount := by
  obtain ⟨_, _, h⟩ := configureStation_frame s c; rw [h]
@[simp] theorem configureStation_choiceCount (c : ConfigRecord) : (configureStation c s).choiceCount = s.choiceCount := by
  obtain ⟨_, _, h⟩ := configureStation_frame s c; rw [h]
@[simp] theorem configureStation_orderCount (c : ConfigRecord) : (configureStation c s).orderCount = s.orderCount := by
  obtain ⟨_, _, h⟩ := configureStation_frame s c; rw [h]
@[simp] theorem configureStation_counters (c : ConfigRecord) : (configureStation c s).counters = s.counters := by
  obtain ⟨_, _, h⟩ := configureStation_frame s c; rw [h]
@[simp] theorem configureStation_flags (c : ConfigRecord) : (configureStation c s).flags = s.flags := by
  obtain ⟨_, _, h⟩ := configureStation_frame s c; rw [h]
@[simp] theorem configureStation_assembler (c : ConfigRecord) : (configureStation c s).assembler = s.assembler := by
  obtain ⟨_, _, h⟩ := configureStation_frame s c; rw [h]
@[simp] theorem configureStation_table (c : ConfigRecord) : (configureStation c s).table = s.table := by
  obtain ⟨_, _, h⟩ := configureStation_frame s c; rw [h]
@[simp] theorem configureStation_decodeQueue (c : ConfigRecord) : (configureStation c s).decodeQueue = s.decodeQueue := by
  obtain ⟨_, _, h⟩ := configureStation_frame s c; rw [h]
@[simp] theorem configureStation_decoder (c : ConfigRecord) : (configureStation c s).decoder = s.decoder := by
  obtain ⟨_, _, h⟩ := configureStation_frame s c; rw [h]
@[simp] theorem configureStation_history (c : ConfigRecord) : (configureStation c s).history = s.history := by
  obtain ⟨_, _, h⟩ := configureStation_frame s c; rw [h]
@[simp] theorem configureStation_slots (c : ConfigRecord) : (configureStation c s).slots = s.slots := by
  obtain ⟨_, _, h⟩ := configureStation_frame s c; rw [h]
@[simp] theorem configureStation_inbox (c : ConfigRecord) : (configureStation c s).inbox = s.inbox := by
  obtain ⟨_, _, h⟩ := configureStation_frame s c; rw [h]
@[simp] theorem configureStation_relays (c : ConfigRecord) : (configureStation c s).relays = s.relays := by
  obtain ⟨_, _, h⟩ := configureStation_frame s c; rw [h]
@[simp] theorem configureStation_outbox (c : ConfigRecord) : (configureStation c s).outbox = s.outbox := by
  obtain ⟨_, _, h⟩ := configureStation_frame s c; rw [h]
@[simp] theorem configureStation_reports (c : ConfigRecord) : (configureStation c s).reports = s.reports := by
  obtain ⟨_, _, h⟩ := configureStation_frame s c; rw [h]
@[simp] theorem configureStation_transmit (c : ConfigRecord) : (configureStation c s).transmit = s.transmit := by
  obtain ⟨_, _, h⟩ := configureStation_frame s c; rw [h]
@[simp] theorem configureStation_port (c : ConfigRecord) : (configureStation c s).port = s.port := by
  obtain ⟨_, _, h⟩ := configureStation_frame s c; rw [h]

/-- What `restartPart` can change. -/
theorem restartPart_frame :
    ∃ x0 x1 x2 x3 x4 x5 x6 x7 x8 x9 x10 x11 x12 x13, restartPart s = { s with station := x0, line := x1, assembler := x2, table := x3, decodeQueue := x4, decoder := x5, history := x6, slots := x7, inbox := x8, relays := x9, outbox := x10, reports := x11, transmit := x12, port := x13 } := by
  unfold restartPart
  repeat' (first | split | dsimp only)
  all_goals
    (repeat' apply Exists.intro)
    apply State.ext <;> first | with_reducible rfl | simp
@[simp] theorem restartPart_pending : (restartPart s).pending = s.pending := by
  obtain ⟨_, _, _, _, _, _, _, _, _, _, _, _, _, _, h⟩ := restartPart_frame s; rw [h]
@[simp] theorem restartPart_pins : (restartPart s).pins = s.pins := by
  obtain ⟨_, _, _, _, _, _, _, _, _, _, _, _, _, _, h⟩ := restartPart_frame s; rw [h]
@[simp] theorem restartPart_inputs : (restartPart s).inputs = s.inputs := by
  obtain ⟨_, _, _, _, _, _, _, _, _, _, _, _, _, _, h⟩ := restartPart_frame s; rw [h]
@[simp] theorem restartPart_refclk : (restartPart s).refclk = s.refclk := by
  obtain ⟨_, _, _, _, _, _, _, _, _, _, _, _, _, _, h⟩ := restartPart_frame s; rw [h]
@[simp] theorem restartPart_drawCount : (restartPart s).drawCount = s.drawCount := by
  obtain ⟨_, _, _, _, _, _, _, _, _, _, _, _, _, _, h⟩ := restartPart_frame s; rw [h]
@[simp] theorem restartPart_choiceCount : (restartPart s).choiceCount = s.choiceCount := by
  obtain ⟨_, _, _, _, _, _, _, _, _, _, _, _, _, _, h⟩ := restartPart_frame s; rw [h]
@[simp] theorem restartPart_orderCount : (restartPart s).orderCount = s.orderCount := by
  obtain ⟨_, _, _, _, _, _, _, _, _, _, _, _, _, _, h⟩ := restartPart_frame s; rw [h]
@[simp] theorem restartPart_counters : (restartPart s).counters = s.counters := by
  obtain ⟨_, _, _, _, _, _, _, _, _, _, _, _, _, _, h⟩ := restartPart_frame s; rw [h]
@[simp] theorem restartPart_flags : (restartPart s).flags = s.flags := by
  obtain ⟨_, _, _, _, _, _, _, _, _, _, _, _, _, _, h⟩ := restartPart_frame s; rw [h]

/-- What `respond` can change. -/
theorem respond_frame (st : Status) (b : List Byte) (c : Commit) :
    ∃ x0, respond st b c s = { s with port := x0 } := by
  unfold respond
  repeat' (first | split | dsimp only)
  all_goals
    (repeat' apply Exists.intro)
    apply State.ext <;> first | with_reducible rfl | simp
@[simp] theorem respond_pending (st : Status) (b : List Byte) (c : Commit) : (respond st b c s).pending = s.pending := by
  obtain ⟨_, h⟩ := respond_frame s st b c; rw [h]
@[simp] theorem respond_pins (st : Status) (b : List Byte) (c : Commit) : (respond st b c s).pins = s.pins := by
  obtain ⟨_, h⟩ := respond_frame s st b c; rw [h]
@[simp] theorem respond_inputs (st : Status) (b : List Byte) (c : Commit) : (respond st b c s).inputs = s.inputs := by
  obtain ⟨_, h⟩ := respond_frame s st b c; rw [h]
@[simp] theorem respond_refclk (st : Status) (b : List Byte) (c : Commit) : (respond st b c s).refclk = s.refclk := by
  obtain ⟨_, h⟩ := respond_frame s st b c; rw [h]
@[simp] theorem respond_drawCount (st : Status) (b : List Byte) (c : Commit) : (respond st b c s).drawCount = s.drawCount := by
  obtain ⟨_, h⟩ := respond_frame s st b c; rw [h]
@[simp] theorem respond_choiceCount (st : Status) (b : List Byte) (c : Commit) : (respond st b c s).choiceCount = s.choiceCount := by
  obtain ⟨_, h⟩ := respond_frame s st b c; rw [h]
@[simp] theorem respond_orderCount (st : Status) (b : List Byte) (c : Commit) : (respond st b c s).orderCount = s.orderCount := by
  obtain ⟨_, h⟩ := respond_frame s st b c; rw [h]
@[simp] theorem respond_station (st : Status) (b : List Byte) (c : Commit) : (respond st b c s).station = s.station := by
  obtain ⟨_, h⟩ := respond_frame s st b c; rw [h]
@[simp] theorem respond_counters (st : Status) (b : List Byte) (c : Commit) : (respond st b c s).counters = s.counters := by
  obtain ⟨_, h⟩ := respond_frame s st b c; rw [h]
@[simp] theorem respond_flags (st : Status) (b : List Byte) (c : Commit) : (respond st b c s).flags = s.flags := by
  obtain ⟨_, h⟩ := respond_frame s st b c; rw [h]
@[simp] theorem respond_line (st : Status) (b : List Byte) (c : Commit) : (respond st b c s).line = s.line := by
  obtain ⟨_, h⟩ := respond_frame s st b c; rw [h]
@[simp] theorem respond_assembler (st : Status) (b : List Byte) (c : Commit) : (respond st b c s).assembler = s.assembler := by
  obtain ⟨_, h⟩ := respond_frame s st b c; rw [h]
@[simp] theorem respond_table (st : Status) (b : List Byte) (c : Commit) : (respond st b c s).table = s.table := by
  obtain ⟨_, h⟩ := respond_frame s st b c; rw [h]
@[simp] theorem respond_decodeQueue (st : Status) (b : List Byte) (c : Commit) : (respond st b c s).decodeQueue = s.decodeQueue := by
  obtain ⟨_, h⟩ := respond_frame s st b c; rw [h]
@[simp] theorem respond_decoder (st : Status) (b : List Byte) (c : Commit) : (respond st b c s).decoder = s.decoder := by
  obtain ⟨_, h⟩ := respond_frame s st b c; rw [h]
@[simp] theorem respond_history (st : Status) (b : List Byte) (c : Commit) : (respond st b c s).history = s.history := by
  obtain ⟨_, h⟩ := respond_frame s st b c; rw [h]
@[simp] theorem respond_slots (st : Status) (b : List Byte) (c : Commit) : (respond st b c s).slots = s.slots := by
  obtain ⟨_, h⟩ := respond_frame s st b c; rw [h]
@[simp] theorem respond_inbox (st : Status) (b : List Byte) (c : Commit) : (respond st b c s).inbox = s.inbox := by
  obtain ⟨_, h⟩ := respond_frame s st b c; rw [h]
@[simp] theorem respond_relays (st : Status) (b : List Byte) (c : Commit) : (respond st b c s).relays = s.relays := by
  obtain ⟨_, h⟩ := respond_frame s st b c; rw [h]
@[simp] theorem respond_outbox (st : Status) (b : List Byte) (c : Commit) : (respond st b c s).outbox = s.outbox := by
  obtain ⟨_, h⟩ := respond_frame s st b c; rw [h]
@[simp] theorem respond_reports (st : Status) (b : List Byte) (c : Commit) : (respond st b c s).reports = s.reports := by
  obtain ⟨_, h⟩ := respond_frame s st b c; rw [h]
@[simp] theorem respond_transmit (st : Status) (b : List Byte) (c : Commit) : (respond st b c s).transmit = s.transmit := by
  obtain ⟨_, h⟩ := respond_frame s st b c; rw [h]

/-- What `answer` can change. -/
theorem answer_frame (st : Status) :
    ∃ x0, answer st s = { s with port := x0 } := by
  unfold answer
  repeat' (first | split | dsimp only)
  all_goals
    (repeat' apply Exists.intro)
    apply State.ext <;> first | with_reducible rfl | simp
@[simp] theorem answer_pending (st : Status) : (answer st s).pending = s.pending := by
  obtain ⟨_, h⟩ := answer_frame s st; rw [h]
@[simp] theorem answer_pins (st : Status) : (answer st s).pins = s.pins := by
  obtain ⟨_, h⟩ := answer_frame s st; rw [h]
@[simp] theorem answer_inputs (st : Status) : (answer st s).inputs = s.inputs := by
  obtain ⟨_, h⟩ := answer_frame s st; rw [h]
@[simp] theorem answer_refclk (st : Status) : (answer st s).refclk = s.refclk := by
  obtain ⟨_, h⟩ := answer_frame s st; rw [h]
@[simp] theorem answer_drawCount (st : Status) : (answer st s).drawCount = s.drawCount := by
  obtain ⟨_, h⟩ := answer_frame s st; rw [h]
@[simp] theorem answer_choiceCount (st : Status) : (answer st s).choiceCount = s.choiceCount := by
  obtain ⟨_, h⟩ := answer_frame s st; rw [h]
@[simp] theorem answer_orderCount (st : Status) : (answer st s).orderCount = s.orderCount := by
  obtain ⟨_, h⟩ := answer_frame s st; rw [h]
@[simp] theorem answer_station (st : Status) : (answer st s).station = s.station := by
  obtain ⟨_, h⟩ := answer_frame s st; rw [h]
@[simp] theorem answer_counters (st : Status) : (answer st s).counters = s.counters := by
  obtain ⟨_, h⟩ := answer_frame s st; rw [h]
@[simp] theorem answer_flags (st : Status) : (answer st s).flags = s.flags := by
  obtain ⟨_, h⟩ := answer_frame s st; rw [h]
@[simp] theorem answer_line (st : Status) : (answer st s).line = s.line := by
  obtain ⟨_, h⟩ := answer_frame s st; rw [h]
@[simp] theorem answer_assembler (st : Status) : (answer st s).assembler = s.assembler := by
  obtain ⟨_, h⟩ := answer_frame s st; rw [h]
@[simp] theorem answer_table (st : Status) : (answer st s).table = s.table := by
  obtain ⟨_, h⟩ := answer_frame s st; rw [h]
@[simp] theorem answer_decodeQueue (st : Status) : (answer st s).decodeQueue = s.decodeQueue := by
  obtain ⟨_, h⟩ := answer_frame s st; rw [h]
@[simp] theorem answer_decoder (st : Status) : (answer st s).decoder = s.decoder := by
  obtain ⟨_, h⟩ := answer_frame s st; rw [h]
@[simp] theorem answer_history (st : Status) : (answer st s).history = s.history := by
  obtain ⟨_, h⟩ := answer_frame s st; rw [h]
@[simp] theorem answer_slots (st : Status) : (answer st s).slots = s.slots := by
  obtain ⟨_, h⟩ := answer_frame s st; rw [h]
@[simp] theorem answer_inbox (st : Status) : (answer st s).inbox = s.inbox := by
  obtain ⟨_, h⟩ := answer_frame s st; rw [h]
@[simp] theorem answer_relays (st : Status) : (answer st s).relays = s.relays := by
  obtain ⟨_, h⟩ := answer_frame s st; rw [h]
@[simp] theorem answer_outbox (st : Status) : (answer st s).outbox = s.outbox := by
  obtain ⟨_, h⟩ := answer_frame s st; rw [h]
@[simp] theorem answer_reports (st : Status) : (answer st s).reports = s.reports := by
  obtain ⟨_, h⟩ := answer_frame s st; rw [h]
@[simp] theorem answer_transmit (st : Status) : (answer st s).transmit = s.transmit := by
  obtain ⟨_, h⟩ := answer_frame s st; rw [h]

/-- What `takeConfigure` can change. -/
theorem takeConfigure_frame (p : ConfigureParams) :
    ∃ x0 x1 x2, takeConfigure p s = { s with station := x0, line := x1, port := x2 } := by
  unfold takeConfigure
  repeat' (first | split | dsimp only)
  all_goals
    (repeat' apply Exists.intro)
    apply State.ext <;> first | with_reducible rfl | simp
@[simp] theorem takeConfigure_pending (p : ConfigureParams) : (takeConfigure p s).pending = s.pending := by
  obtain ⟨_, _, _, h⟩ := takeConfigure_frame s p; rw [h]
@[simp] theorem takeConfigure_pins (p : ConfigureParams) : (takeConfigure p s).pins = s.pins := by
  obtain ⟨_, _, _, h⟩ := takeConfigure_frame s p; rw [h]
@[simp] theorem takeConfigure_inputs (p : ConfigureParams) : (takeConfigure p s).inputs = s.inputs := by
  obtain ⟨_, _, _, h⟩ := takeConfigure_frame s p; rw [h]
@[simp] theorem takeConfigure_refclk (p : ConfigureParams) : (takeConfigure p s).refclk = s.refclk := by
  obtain ⟨_, _, _, h⟩ := takeConfigure_frame s p; rw [h]
@[simp] theorem takeConfigure_drawCount (p : ConfigureParams) : (takeConfigure p s).drawCount = s.drawCount := by
  obtain ⟨_, _, _, h⟩ := takeConfigure_frame s p; rw [h]
@[simp] theorem takeConfigure_choiceCount (p : ConfigureParams) : (takeConfigure p s).choiceCount = s.choiceCount := by
  obtain ⟨_, _, _, h⟩ := takeConfigure_frame s p; rw [h]
@[simp] theorem takeConfigure_orderCount (p : ConfigureParams) : (takeConfigure p s).orderCount = s.orderCount := by
  obtain ⟨_, _, _, h⟩ := takeConfigure_frame s p; rw [h]
@[simp] theorem takeConfigure_counters (p : ConfigureParams) : (takeConfigure p s).counters = s.counters := by
  obtain ⟨_, _, _, h⟩ := takeConfigure_frame s p; rw [h]
@[simp] theorem takeConfigure_flags (p : ConfigureParams) : (takeConfigure p s).flags = s.flags := by
  obtain ⟨_, _, _, h⟩ := takeConfigure_frame s p; rw [h]
@[simp] theorem takeConfigure_assembler (p : ConfigureParams) : (takeConfigure p s).assembler = s.assembler := by
  obtain ⟨_, _, _, h⟩ := takeConfigure_frame s p; rw [h]
@[simp] theorem takeConfigure_table (p : ConfigureParams) : (takeConfigure p s).table = s.table := by
  obtain ⟨_, _, _, h⟩ := takeConfigure_frame s p; rw [h]
@[simp] theorem takeConfigure_decodeQueue (p : ConfigureParams) : (takeConfigure p s).decodeQueue = s.decodeQueue := by
  obtain ⟨_, _, _, h⟩ := takeConfigure_frame s p; rw [h]
@[simp] theorem takeConfigure_decoder (p : ConfigureParams) : (takeConfigure p s).decoder = s.decoder := by
  obtain ⟨_, _, _, h⟩ := takeConfigure_frame s p; rw [h]
@[simp] theorem takeConfigure_history (p : ConfigureParams) : (takeConfigure p s).history = s.history := by
  obtain ⟨_, _, _, h⟩ := takeConfigure_frame s p; rw [h]
@[simp] theorem takeConfigure_slots (p : ConfigureParams) : (takeConfigure p s).slots = s.slots := by
  obtain ⟨_, _, _, h⟩ := takeConfigure_frame s p; rw [h]
@[simp] theorem takeConfigure_inbox (p : ConfigureParams) : (takeConfigure p s).inbox = s.inbox := by
  obtain ⟨_, _, _, h⟩ := takeConfigure_frame s p; rw [h]
@[simp] theorem takeConfigure_relays (p : ConfigureParams) : (takeConfigure p s).relays = s.relays := by
  obtain ⟨_, _, _, h⟩ := takeConfigure_frame s p; rw [h]
@[simp] theorem takeConfigure_outbox (p : ConfigureParams) : (takeConfigure p s).outbox = s.outbox := by
  obtain ⟨_, _, _, h⟩ := takeConfigure_frame s p; rw [h]
@[simp] theorem takeConfigure_reports (p : ConfigureParams) : (takeConfigure p s).reports = s.reports := by
  obtain ⟨_, _, _, h⟩ := takeConfigure_frame s p; rw [h]
@[simp] theorem takeConfigure_transmit (p : ConfigureParams) : (takeConfigure p s).transmit = s.transmit := by
  obtain ⟨_, _, _, h⟩ := takeConfigure_frame s p; rw [h]

/-- What `acceptSubmit` can change. -/
theorem acceptSubmit_frame (p : SubmitParams) :
    ∃ x0 x1 x2, acceptSubmit p s = { s with station := x0, slots := x1, outbox := x2 } := by
  unfold acceptSubmit
  repeat' (first | split | dsimp only)
  all_goals
    (repeat' apply Exists.intro)
    apply State.ext <;> first | with_reducible rfl | simp
@[simp] theorem acceptSubmit_pending (p : SubmitParams) : (acceptSubmit p s).pending = s.pending := by
  obtain ⟨_, _, _, h⟩ := acceptSubmit_frame s p; rw [h]
@[simp] theorem acceptSubmit_pins (p : SubmitParams) : (acceptSubmit p s).pins = s.pins := by
  obtain ⟨_, _, _, h⟩ := acceptSubmit_frame s p; rw [h]
@[simp] theorem acceptSubmit_inputs (p : SubmitParams) : (acceptSubmit p s).inputs = s.inputs := by
  obtain ⟨_, _, _, h⟩ := acceptSubmit_frame s p; rw [h]
@[simp] theorem acceptSubmit_refclk (p : SubmitParams) : (acceptSubmit p s).refclk = s.refclk := by
  obtain ⟨_, _, _, h⟩ := acceptSubmit_frame s p; rw [h]
@[simp] theorem acceptSubmit_drawCount (p : SubmitParams) : (acceptSubmit p s).drawCount = s.drawCount := by
  obtain ⟨_, _, _, h⟩ := acceptSubmit_frame s p; rw [h]
@[simp] theorem acceptSubmit_choiceCount (p : SubmitParams) : (acceptSubmit p s).choiceCount = s.choiceCount := by
  obtain ⟨_, _, _, h⟩ := acceptSubmit_frame s p; rw [h]
@[simp] theorem acceptSubmit_orderCount (p : SubmitParams) : (acceptSubmit p s).orderCount = s.orderCount := by
  obtain ⟨_, _, _, h⟩ := acceptSubmit_frame s p; rw [h]
@[simp] theorem acceptSubmit_counters (p : SubmitParams) : (acceptSubmit p s).counters = s.counters := by
  obtain ⟨_, _, _, h⟩ := acceptSubmit_frame s p; rw [h]
@[simp] theorem acceptSubmit_flags (p : SubmitParams) : (acceptSubmit p s).flags = s.flags := by
  obtain ⟨_, _, _, h⟩ := acceptSubmit_frame s p; rw [h]
@[simp] theorem acceptSubmit_line (p : SubmitParams) : (acceptSubmit p s).line = s.line := by
  obtain ⟨_, _, _, h⟩ := acceptSubmit_frame s p; rw [h]
@[simp] theorem acceptSubmit_assembler (p : SubmitParams) : (acceptSubmit p s).assembler = s.assembler := by
  obtain ⟨_, _, _, h⟩ := acceptSubmit_frame s p; rw [h]
@[simp] theorem acceptSubmit_table (p : SubmitParams) : (acceptSubmit p s).table = s.table := by
  obtain ⟨_, _, _, h⟩ := acceptSubmit_frame s p; rw [h]
@[simp] theorem acceptSubmit_decodeQueue (p : SubmitParams) : (acceptSubmit p s).decodeQueue = s.decodeQueue := by
  obtain ⟨_, _, _, h⟩ := acceptSubmit_frame s p; rw [h]
@[simp] theorem acceptSubmit_decoder (p : SubmitParams) : (acceptSubmit p s).decoder = s.decoder := by
  obtain ⟨_, _, _, h⟩ := acceptSubmit_frame s p; rw [h]
@[simp] theorem acceptSubmit_history (p : SubmitParams) : (acceptSubmit p s).history = s.history := by
  obtain ⟨_, _, _, h⟩ := acceptSubmit_frame s p; rw [h]
@[simp] theorem acceptSubmit_inbox (p : SubmitParams) : (acceptSubmit p s).inbox = s.inbox := by
  obtain ⟨_, _, _, h⟩ := acceptSubmit_frame s p; rw [h]
@[simp] theorem acceptSubmit_relays (p : SubmitParams) : (acceptSubmit p s).relays = s.relays := by
  obtain ⟨_, _, _, h⟩ := acceptSubmit_frame s p; rw [h]
@[simp] theorem acceptSubmit_reports (p : SubmitParams) : (acceptSubmit p s).reports = s.reports := by
  obtain ⟨_, _, _, h⟩ := acceptSubmit_frame s p; rw [h]
@[simp] theorem acceptSubmit_transmit (p : SubmitParams) : (acceptSubmit p s).transmit = s.transmit := by
  obtain ⟨_, _, _, h⟩ := acceptSubmit_frame s p; rw [h]
@[simp] theorem acceptSubmit_port (p : SubmitParams) : (acceptSubmit p s).port = s.port := by
  obtain ⟨_, _, _, h⟩ := acceptSubmit_frame s p; rw [h]

/-- What `takeSubmit` can change. -/
theorem takeSubmit_frame (p : SubmitParams) :
    ∃ x0 x1 x2 x3, takeSubmit p s = { s with station := x0, slots := x1, outbox := x2, port := x3 } := by
  unfold takeSubmit
  repeat' (first | split | dsimp only)
  all_goals
    (repeat' apply Exists.intro)
    apply State.ext <;> first | with_reducible rfl | simp
@[simp] theorem takeSubmit_pending (p : SubmitParams) : (takeSubmit p s).pending = s.pending := by
  obtain ⟨_, _, _, _, h⟩ := takeSubmit_frame s p; rw [h]
@[simp] theorem takeSubmit_pins (p : SubmitParams) : (takeSubmit p s).pins = s.pins := by
  obtain ⟨_, _, _, _, h⟩ := takeSubmit_frame s p; rw [h]
@[simp] theorem takeSubmit_inputs (p : SubmitParams) : (takeSubmit p s).inputs = s.inputs := by
  obtain ⟨_, _, _, _, h⟩ := takeSubmit_frame s p; rw [h]
@[simp] theorem takeSubmit_refclk (p : SubmitParams) : (takeSubmit p s).refclk = s.refclk := by
  obtain ⟨_, _, _, _, h⟩ := takeSubmit_frame s p; rw [h]
@[simp] theorem takeSubmit_drawCount (p : SubmitParams) : (takeSubmit p s).drawCount = s.drawCount := by
  obtain ⟨_, _, _, _, h⟩ := takeSubmit_frame s p; rw [h]
@[simp] theorem takeSubmit_choiceCount (p : SubmitParams) : (takeSubmit p s).choiceCount = s.choiceCount := by
  obtain ⟨_, _, _, _, h⟩ := takeSubmit_frame s p; rw [h]
@[simp] theorem takeSubmit_orderCount (p : SubmitParams) : (takeSubmit p s).orderCount = s.orderCount := by
  obtain ⟨_, _, _, _, h⟩ := takeSubmit_frame s p; rw [h]
@[simp] theorem takeSubmit_counters (p : SubmitParams) : (takeSubmit p s).counters = s.counters := by
  obtain ⟨_, _, _, _, h⟩ := takeSubmit_frame s p; rw [h]
@[simp] theorem takeSubmit_flags (p : SubmitParams) : (takeSubmit p s).flags = s.flags := by
  obtain ⟨_, _, _, _, h⟩ := takeSubmit_frame s p; rw [h]
@[simp] theorem takeSubmit_line (p : SubmitParams) : (takeSubmit p s).line = s.line := by
  obtain ⟨_, _, _, _, h⟩ := takeSubmit_frame s p; rw [h]
@[simp] theorem takeSubmit_assembler (p : SubmitParams) : (takeSubmit p s).assembler = s.assembler := by
  obtain ⟨_, _, _, _, h⟩ := takeSubmit_frame s p; rw [h]
@[simp] theorem takeSubmit_table (p : SubmitParams) : (takeSubmit p s).table = s.table := by
  obtain ⟨_, _, _, _, h⟩ := takeSubmit_frame s p; rw [h]
@[simp] theorem takeSubmit_decodeQueue (p : SubmitParams) : (takeSubmit p s).decodeQueue = s.decodeQueue := by
  obtain ⟨_, _, _, _, h⟩ := takeSubmit_frame s p; rw [h]
@[simp] theorem takeSubmit_decoder (p : SubmitParams) : (takeSubmit p s).decoder = s.decoder := by
  obtain ⟨_, _, _, _, h⟩ := takeSubmit_frame s p; rw [h]
@[simp] theorem takeSubmit_history (p : SubmitParams) : (takeSubmit p s).history = s.history := by
  obtain ⟨_, _, _, _, h⟩ := takeSubmit_frame s p; rw [h]
@[simp] theorem takeSubmit_inbox (p : SubmitParams) : (takeSubmit p s).inbox = s.inbox := by
  obtain ⟨_, _, _, _, h⟩ := takeSubmit_frame s p; rw [h]
@[simp] theorem takeSubmit_relays (p : SubmitParams) : (takeSubmit p s).relays = s.relays := by
  obtain ⟨_, _, _, _, h⟩ := takeSubmit_frame s p; rw [h]
@[simp] theorem takeSubmit_reports (p : SubmitParams) : (takeSubmit p s).reports = s.reports := by
  obtain ⟨_, _, _, _, h⟩ := takeSubmit_frame s p; rw [h]
@[simp] theorem takeSubmit_transmit (p : SubmitParams) : (takeSubmit p s).transmit = s.transmit := by
  obtain ⟨_, _, _, _, h⟩ := takeSubmit_frame s p; rw [h]

/-- What `takeCollectMessage` can change. -/
theorem takeCollectMessage_frame :
    ∃ x0, takeCollectMessage s = { s with port := x0 } := by
  unfold takeCollectMessage
  repeat' (first | split | dsimp only)
  all_goals
    (repeat' apply Exists.intro)
    apply State.ext <;> first | with_reducible rfl | simp
@[simp] theorem takeCollectMessage_pending : (takeCollectMessage s).pending = s.pending := by
  obtain ⟨_, h⟩ := takeCollectMessage_frame s; rw [h]
@[simp] theorem takeCollectMessage_pins : (takeCollectMessage s).pins = s.pins := by
  obtain ⟨_, h⟩ := takeCollectMessage_frame s; rw [h]
@[simp] theorem takeCollectMessage_inputs : (takeCollectMessage s).inputs = s.inputs := by
  obtain ⟨_, h⟩ := takeCollectMessage_frame s; rw [h]
@[simp] theorem takeCollectMessage_refclk : (takeCollectMessage s).refclk = s.refclk := by
  obtain ⟨_, h⟩ := takeCollectMessage_frame s; rw [h]
@[simp] theorem takeCollectMessage_drawCount : (takeCollectMessage s).drawCount = s.drawCount := by
  obtain ⟨_, h⟩ := takeCollectMessage_frame s; rw [h]
@[simp] theorem takeCollectMessage_choiceCount : (takeCollectMessage s).choiceCount = s.choiceCount := by
  obtain ⟨_, h⟩ := takeCollectMessage_frame s; rw [h]
@[simp] theorem takeCollectMessage_orderCount : (takeCollectMessage s).orderCount = s.orderCount := by
  obtain ⟨_, h⟩ := takeCollectMessage_frame s; rw [h]
@[simp] theorem takeCollectMessage_station : (takeCollectMessage s).station = s.station := by
  obtain ⟨_, h⟩ := takeCollectMessage_frame s; rw [h]
@[simp] theorem takeCollectMessage_counters : (takeCollectMessage s).counters = s.counters := by
  obtain ⟨_, h⟩ := takeCollectMessage_frame s; rw [h]
@[simp] theorem takeCollectMessage_flags : (takeCollectMessage s).flags = s.flags := by
  obtain ⟨_, h⟩ := takeCollectMessage_frame s; rw [h]
@[simp] theorem takeCollectMessage_line : (takeCollectMessage s).line = s.line := by
  obtain ⟨_, h⟩ := takeCollectMessage_frame s; rw [h]
@[simp] theorem takeCollectMessage_assembler : (takeCollectMessage s).assembler = s.assembler := by
  obtain ⟨_, h⟩ := takeCollectMessage_frame s; rw [h]
@[simp] theorem takeCollectMessage_table : (takeCollectMessage s).table = s.table := by
  obtain ⟨_, h⟩ := takeCollectMessage_frame s; rw [h]
@[simp] theorem takeCollectMessage_decodeQueue : (takeCollectMessage s).decodeQueue = s.decodeQueue := by
  obtain ⟨_, h⟩ := takeCollectMessage_frame s; rw [h]
@[simp] theorem takeCollectMessage_decoder : (takeCollectMessage s).decoder = s.decoder := by
  obtain ⟨_, h⟩ := takeCollectMessage_frame s; rw [h]
@[simp] theorem takeCollectMessage_history : (takeCollectMessage s).history = s.history := by
  obtain ⟨_, h⟩ := takeCollectMessage_frame s; rw [h]
@[simp] theorem takeCollectMessage_slots : (takeCollectMessage s).slots = s.slots := by
  obtain ⟨_, h⟩ := takeCollectMessage_frame s; rw [h]
@[simp] theorem takeCollectMessage_inbox : (takeCollectMessage s).inbox = s.inbox := by
  obtain ⟨_, h⟩ := takeCollectMessage_frame s; rw [h]
@[simp] theorem takeCollectMessage_relays : (takeCollectMessage s).relays = s.relays := by
  obtain ⟨_, h⟩ := takeCollectMessage_frame s; rw [h]
@[simp] theorem takeCollectMessage_outbox : (takeCollectMessage s).outbox = s.outbox := by
  obtain ⟨_, h⟩ := takeCollectMessage_frame s; rw [h]
@[simp] theorem takeCollectMessage_reports : (takeCollectMessage s).reports = s.reports := by
  obtain ⟨_, h⟩ := takeCollectMessage_frame s; rw [h]
@[simp] theorem takeCollectMessage_transmit : (takeCollectMessage s).transmit = s.transmit := by
  obtain ⟨_, h⟩ := takeCollectMessage_frame s; rw [h]

/-- What `takeCollectReport` can change. -/
theorem takeCollectReport_frame :
    ∃ x0, takeCollectReport s = { s with port := x0 } := by
  unfold takeCollectReport
  repeat' (first | split | dsimp only)
  all_goals
    (repeat' apply Exists.intro)
    apply State.ext <;> first | with_reducible rfl | simp
@[simp] theorem takeCollectReport_pending : (takeCollectReport s).pending = s.pending := by
  obtain ⟨_, h⟩ := takeCollectReport_frame s; rw [h]
@[simp] theorem takeCollectReport_pins : (takeCollectReport s).pins = s.pins := by
  obtain ⟨_, h⟩ := takeCollectReport_frame s; rw [h]
@[simp] theorem takeCollectReport_inputs : (takeCollectReport s).inputs = s.inputs := by
  obtain ⟨_, h⟩ := takeCollectReport_frame s; rw [h]
@[simp] theorem takeCollectReport_refclk : (takeCollectReport s).refclk = s.refclk := by
  obtain ⟨_, h⟩ := takeCollectReport_frame s; rw [h]
@[simp] theorem takeCollectReport_drawCount : (takeCollectReport s).drawCount = s.drawCount := by
  obtain ⟨_, h⟩ := takeCollectReport_frame s; rw [h]
@[simp] theorem takeCollectReport_choiceCount : (takeCollectReport s).choiceCount = s.choiceCount := by
  obtain ⟨_, h⟩ := takeCollectReport_frame s; rw [h]
@[simp] theorem takeCollectReport_orderCount : (takeCollectReport s).orderCount = s.orderCount := by
  obtain ⟨_, h⟩ := takeCollectReport_frame s; rw [h]
@[simp] theorem takeCollectReport_station : (takeCollectReport s).station = s.station := by
  obtain ⟨_, h⟩ := takeCollectReport_frame s; rw [h]
@[simp] theorem takeCollectReport_counters : (takeCollectReport s).counters = s.counters := by
  obtain ⟨_, h⟩ := takeCollectReport_frame s; rw [h]
@[simp] theorem takeCollectReport_flags : (takeCollectReport s).flags = s.flags := by
  obtain ⟨_, h⟩ := takeCollectReport_frame s; rw [h]
@[simp] theorem takeCollectReport_line : (takeCollectReport s).line = s.line := by
  obtain ⟨_, h⟩ := takeCollectReport_frame s; rw [h]
@[simp] theorem takeCollectReport_assembler : (takeCollectReport s).assembler = s.assembler := by
  obtain ⟨_, h⟩ := takeCollectReport_frame s; rw [h]
@[simp] theorem takeCollectReport_table : (takeCollectReport s).table = s.table := by
  obtain ⟨_, h⟩ := takeCollectReport_frame s; rw [h]
@[simp] theorem takeCollectReport_decodeQueue : (takeCollectReport s).decodeQueue = s.decodeQueue := by
  obtain ⟨_, h⟩ := takeCollectReport_frame s; rw [h]
@[simp] theorem takeCollectReport_decoder : (takeCollectReport s).decoder = s.decoder := by
  obtain ⟨_, h⟩ := takeCollectReport_frame s; rw [h]
@[simp] theorem takeCollectReport_history : (takeCollectReport s).history = s.history := by
  obtain ⟨_, h⟩ := takeCollectReport_frame s; rw [h]
@[simp] theorem takeCollectReport_slots : (takeCollectReport s).slots = s.slots := by
  obtain ⟨_, h⟩ := takeCollectReport_frame s; rw [h]
@[simp] theorem takeCollectReport_inbox : (takeCollectReport s).inbox = s.inbox := by
  obtain ⟨_, h⟩ := takeCollectReport_frame s; rw [h]
@[simp] theorem takeCollectReport_relays : (takeCollectReport s).relays = s.relays := by
  obtain ⟨_, h⟩ := takeCollectReport_frame s; rw [h]
@[simp] theorem takeCollectReport_outbox : (takeCollectReport s).outbox = s.outbox := by
  obtain ⟨_, h⟩ := takeCollectReport_frame s; rw [h]
@[simp] theorem takeCollectReport_reports : (takeCollectReport s).reports = s.reports := by
  obtain ⟨_, h⟩ := takeCollectReport_frame s; rw [h]
@[simp] theorem takeCollectReport_transmit : (takeCollectReport s).transmit = s.transmit := by
  obtain ⟨_, h⟩ := takeCollectReport_frame s; rw [h]

/-- What `takeReadStatus` can change. -/
theorem takeReadStatus_frame :
    ∃ x0, takeReadStatus s = { s with port := x0 } := by
  unfold takeReadStatus
  repeat' (first | split | dsimp only)
  all_goals
    (repeat' apply Exists.intro)
    apply State.ext <;> first | with_reducible rfl | simp
@[simp] theorem takeReadStatus_pending : (takeReadStatus s).pending = s.pending := by
  obtain ⟨_, h⟩ := takeReadStatus_frame s; rw [h]
@[simp] theorem takeReadStatus_pins : (takeReadStatus s).pins = s.pins := by
  obtain ⟨_, h⟩ := takeReadStatus_frame s; rw [h]
@[simp] theorem takeReadStatus_inputs : (takeReadStatus s).inputs = s.inputs := by
  obtain ⟨_, h⟩ := takeReadStatus_frame s; rw [h]
@[simp] theorem takeReadStatus_refclk : (takeReadStatus s).refclk = s.refclk := by
  obtain ⟨_, h⟩ := takeReadStatus_frame s; rw [h]
@[simp] theorem takeReadStatus_drawCount : (takeReadStatus s).drawCount = s.drawCount := by
  obtain ⟨_, h⟩ := takeReadStatus_frame s; rw [h]
@[simp] theorem takeReadStatus_choiceCount : (takeReadStatus s).choiceCount = s.choiceCount := by
  obtain ⟨_, h⟩ := takeReadStatus_frame s; rw [h]
@[simp] theorem takeReadStatus_orderCount : (takeReadStatus s).orderCount = s.orderCount := by
  obtain ⟨_, h⟩ := takeReadStatus_frame s; rw [h]
@[simp] theorem takeReadStatus_station : (takeReadStatus s).station = s.station := by
  obtain ⟨_, h⟩ := takeReadStatus_frame s; rw [h]
@[simp] theorem takeReadStatus_counters : (takeReadStatus s).counters = s.counters := by
  obtain ⟨_, h⟩ := takeReadStatus_frame s; rw [h]
@[simp] theorem takeReadStatus_flags : (takeReadStatus s).flags = s.flags := by
  obtain ⟨_, h⟩ := takeReadStatus_frame s; rw [h]
@[simp] theorem takeReadStatus_line : (takeReadStatus s).line = s.line := by
  obtain ⟨_, h⟩ := takeReadStatus_frame s; rw [h]
@[simp] theorem takeReadStatus_assembler : (takeReadStatus s).assembler = s.assembler := by
  obtain ⟨_, h⟩ := takeReadStatus_frame s; rw [h]
@[simp] theorem takeReadStatus_table : (takeReadStatus s).table = s.table := by
  obtain ⟨_, h⟩ := takeReadStatus_frame s; rw [h]
@[simp] theorem takeReadStatus_decodeQueue : (takeReadStatus s).decodeQueue = s.decodeQueue := by
  obtain ⟨_, h⟩ := takeReadStatus_frame s; rw [h]
@[simp] theorem takeReadStatus_decoder : (takeReadStatus s).decoder = s.decoder := by
  obtain ⟨_, h⟩ := takeReadStatus_frame s; rw [h]
@[simp] theorem takeReadStatus_history : (takeReadStatus s).history = s.history := by
  obtain ⟨_, h⟩ := takeReadStatus_frame s; rw [h]
@[simp] theorem takeReadStatus_slots : (takeReadStatus s).slots = s.slots := by
  obtain ⟨_, h⟩ := takeReadStatus_frame s; rw [h]
@[simp] theorem takeReadStatus_inbox : (takeReadStatus s).inbox = s.inbox := by
  obtain ⟨_, h⟩ := takeReadStatus_frame s; rw [h]
@[simp] theorem takeReadStatus_relays : (takeReadStatus s).relays = s.relays := by
  obtain ⟨_, h⟩ := takeReadStatus_frame s; rw [h]
@[simp] theorem takeReadStatus_outbox : (takeReadStatus s).outbox = s.outbox := by
  obtain ⟨_, h⟩ := takeReadStatus_frame s; rw [h]
@[simp] theorem takeReadStatus_reports : (takeReadStatus s).reports = s.reports := by
  obtain ⟨_, h⟩ := takeReadStatus_frame s; rw [h]
@[simp] theorem takeReadStatus_transmit : (takeReadStatus s).transmit = s.transmit := by
  obtain ⟨_, h⟩ := takeReadStatus_frame s; rw [h]

/-- What `takeReadCounters` can change. -/
theorem takeReadCounters_frame (c : Byte) :
    ∃ x0, takeReadCounters c s = { s with port := x0 } := by
  unfold takeReadCounters
  repeat' (first | split | dsimp only)
  all_goals
    (repeat' apply Exists.intro)
    apply State.ext <;> first | with_reducible rfl | simp
@[simp] theorem takeReadCounters_pending (c : Byte) : (takeReadCounters c s).pending = s.pending := by
  obtain ⟨_, h⟩ := takeReadCounters_frame s c; rw [h]
@[simp] theorem takeReadCounters_pins (c : Byte) : (takeReadCounters c s).pins = s.pins := by
  obtain ⟨_, h⟩ := takeReadCounters_frame s c; rw [h]
@[simp] theorem takeReadCounters_inputs (c : Byte) : (takeReadCounters c s).inputs = s.inputs := by
  obtain ⟨_, h⟩ := takeReadCounters_frame s c; rw [h]
@[simp] theorem takeReadCounters_refclk (c : Byte) : (takeReadCounters c s).refclk = s.refclk := by
  obtain ⟨_, h⟩ := takeReadCounters_frame s c; rw [h]
@[simp] theorem takeReadCounters_drawCount (c : Byte) : (takeReadCounters c s).drawCount = s.drawCount := by
  obtain ⟨_, h⟩ := takeReadCounters_frame s c; rw [h]
@[simp] theorem takeReadCounters_choiceCount (c : Byte) : (takeReadCounters c s).choiceCount = s.choiceCount := by
  obtain ⟨_, h⟩ := takeReadCounters_frame s c; rw [h]
@[simp] theorem takeReadCounters_orderCount (c : Byte) : (takeReadCounters c s).orderCount = s.orderCount := by
  obtain ⟨_, h⟩ := takeReadCounters_frame s c; rw [h]
@[simp] theorem takeReadCounters_station (c : Byte) : (takeReadCounters c s).station = s.station := by
  obtain ⟨_, h⟩ := takeReadCounters_frame s c; rw [h]
@[simp] theorem takeReadCounters_counters (c : Byte) : (takeReadCounters c s).counters = s.counters := by
  obtain ⟨_, h⟩ := takeReadCounters_frame s c; rw [h]
@[simp] theorem takeReadCounters_flags (c : Byte) : (takeReadCounters c s).flags = s.flags := by
  obtain ⟨_, h⟩ := takeReadCounters_frame s c; rw [h]
@[simp] theorem takeReadCounters_line (c : Byte) : (takeReadCounters c s).line = s.line := by
  obtain ⟨_, h⟩ := takeReadCounters_frame s c; rw [h]
@[simp] theorem takeReadCounters_assembler (c : Byte) : (takeReadCounters c s).assembler = s.assembler := by
  obtain ⟨_, h⟩ := takeReadCounters_frame s c; rw [h]
@[simp] theorem takeReadCounters_table (c : Byte) : (takeReadCounters c s).table = s.table := by
  obtain ⟨_, h⟩ := takeReadCounters_frame s c; rw [h]
@[simp] theorem takeReadCounters_decodeQueue (c : Byte) : (takeReadCounters c s).decodeQueue = s.decodeQueue := by
  obtain ⟨_, h⟩ := takeReadCounters_frame s c; rw [h]
@[simp] theorem takeReadCounters_decoder (c : Byte) : (takeReadCounters c s).decoder = s.decoder := by
  obtain ⟨_, h⟩ := takeReadCounters_frame s c; rw [h]
@[simp] theorem takeReadCounters_history (c : Byte) : (takeReadCounters c s).history = s.history := by
  obtain ⟨_, h⟩ := takeReadCounters_frame s c; rw [h]
@[simp] theorem takeReadCounters_slots (c : Byte) : (takeReadCounters c s).slots = s.slots := by
  obtain ⟨_, h⟩ := takeReadCounters_frame s c; rw [h]
@[simp] theorem takeReadCounters_inbox (c : Byte) : (takeReadCounters c s).inbox = s.inbox := by
  obtain ⟨_, h⟩ := takeReadCounters_frame s c; rw [h]
@[simp] theorem takeReadCounters_relays (c : Byte) : (takeReadCounters c s).relays = s.relays := by
  obtain ⟨_, h⟩ := takeReadCounters_frame s c; rw [h]
@[simp] theorem takeReadCounters_outbox (c : Byte) : (takeReadCounters c s).outbox = s.outbox := by
  obtain ⟨_, h⟩ := takeReadCounters_frame s c; rw [h]
@[simp] theorem takeReadCounters_reports (c : Byte) : (takeReadCounters c s).reports = s.reports := by
  obtain ⟨_, h⟩ := takeReadCounters_frame s c; rw [h]
@[simp] theorem takeReadCounters_transmit (c : Byte) : (takeReadCounters c s).transmit = s.transmit := by
  obtain ⟨_, h⟩ := takeReadCounters_frame s c; rw [h]

/-- What `takeClearEvents` can change. -/
theorem takeClearEvents_frame (m : Byte) :
    ∃ x0 x1, takeClearEvents m s = { s with flags := x0, port := x1 } := by
  unfold takeClearEvents
  repeat' (first | split | dsimp only)
  all_goals
    (repeat' apply Exists.intro)
    apply State.ext <;> first | with_reducible rfl | simp
@[simp] theorem takeClearEvents_pending (m : Byte) : (takeClearEvents m s).pending = s.pending := by
  obtain ⟨_, _, h⟩ := takeClearEvents_frame s m; rw [h]
@[simp] theorem takeClearEvents_pins (m : Byte) : (takeClearEvents m s).pins = s.pins := by
  obtain ⟨_, _, h⟩ := takeClearEvents_frame s m; rw [h]
@[simp] theorem takeClearEvents_inputs (m : Byte) : (takeClearEvents m s).inputs = s.inputs := by
  obtain ⟨_, _, h⟩ := takeClearEvents_frame s m; rw [h]
@[simp] theorem takeClearEvents_refclk (m : Byte) : (takeClearEvents m s).refclk = s.refclk := by
  obtain ⟨_, _, h⟩ := takeClearEvents_frame s m; rw [h]
@[simp] theorem takeClearEvents_drawCount (m : Byte) : (takeClearEvents m s).drawCount = s.drawCount := by
  obtain ⟨_, _, h⟩ := takeClearEvents_frame s m; rw [h]
@[simp] theorem takeClearEvents_choiceCount (m : Byte) : (takeClearEvents m s).choiceCount = s.choiceCount := by
  obtain ⟨_, _, h⟩ := takeClearEvents_frame s m; rw [h]
@[simp] theorem takeClearEvents_orderCount (m : Byte) : (takeClearEvents m s).orderCount = s.orderCount := by
  obtain ⟨_, _, h⟩ := takeClearEvents_frame s m; rw [h]
@[simp] theorem takeClearEvents_station (m : Byte) : (takeClearEvents m s).station = s.station := by
  obtain ⟨_, _, h⟩ := takeClearEvents_frame s m; rw [h]
@[simp] theorem takeClearEvents_counters (m : Byte) : (takeClearEvents m s).counters = s.counters := by
  obtain ⟨_, _, h⟩ := takeClearEvents_frame s m; rw [h]
@[simp] theorem takeClearEvents_line (m : Byte) : (takeClearEvents m s).line = s.line := by
  obtain ⟨_, _, h⟩ := takeClearEvents_frame s m; rw [h]
@[simp] theorem takeClearEvents_assembler (m : Byte) : (takeClearEvents m s).assembler = s.assembler := by
  obtain ⟨_, _, h⟩ := takeClearEvents_frame s m; rw [h]
@[simp] theorem takeClearEvents_table (m : Byte) : (takeClearEvents m s).table = s.table := by
  obtain ⟨_, _, h⟩ := takeClearEvents_frame s m; rw [h]
@[simp] theorem takeClearEvents_decodeQueue (m : Byte) : (takeClearEvents m s).decodeQueue = s.decodeQueue := by
  obtain ⟨_, _, h⟩ := takeClearEvents_frame s m; rw [h]
@[simp] theorem takeClearEvents_decoder (m : Byte) : (takeClearEvents m s).decoder = s.decoder := by
  obtain ⟨_, _, h⟩ := takeClearEvents_frame s m; rw [h]
@[simp] theorem takeClearEvents_history (m : Byte) : (takeClearEvents m s).history = s.history := by
  obtain ⟨_, _, h⟩ := takeClearEvents_frame s m; rw [h]
@[simp] theorem takeClearEvents_slots (m : Byte) : (takeClearEvents m s).slots = s.slots := by
  obtain ⟨_, _, h⟩ := takeClearEvents_frame s m; rw [h]
@[simp] theorem takeClearEvents_inbox (m : Byte) : (takeClearEvents m s).inbox = s.inbox := by
  obtain ⟨_, _, h⟩ := takeClearEvents_frame s m; rw [h]
@[simp] theorem takeClearEvents_relays (m : Byte) : (takeClearEvents m s).relays = s.relays := by
  obtain ⟨_, _, h⟩ := takeClearEvents_frame s m; rw [h]
@[simp] theorem takeClearEvents_outbox (m : Byte) : (takeClearEvents m s).outbox = s.outbox := by
  obtain ⟨_, _, h⟩ := takeClearEvents_frame s m; rw [h]
@[simp] theorem takeClearEvents_reports (m : Byte) : (takeClearEvents m s).reports = s.reports := by
  obtain ⟨_, _, h⟩ := takeClearEvents_frame s m; rw [h]
@[simp] theorem takeClearEvents_transmit (m : Byte) : (takeClearEvents m s).transmit = s.transmit := by
  obtain ⟨_, _, h⟩ := takeClearEvents_frame s m; rw [h]

/-- What `takeRequest` can change. -/
theorem takeRequest_frame (r : Request) :
    ∃ x0 x1 x2 x3 x4 x5 x6 x7 x8 x9 x10 x11 x12 x13 x14, takeRequest r s = { s with station := x0, flags := x1, line := x2, assembler := x3, table := x4, decodeQueue := x5, decoder := x6, history := x7, slots := x8, inbox := x9, relays := x10, outbox := x11, reports := x12, transmit := x13, port := x14 } := by
  unfold takeRequest whenConfigured
  repeat' (first | split | dsimp only)
  all_goals
    (repeat' apply Exists.intro)
    apply State.ext <;> first | with_reducible rfl | simp
@[simp] theorem takeRequest_pending (r : Request) : (takeRequest r s).pending = s.pending := by
  obtain ⟨_, _, _, _, _, _, _, _, _, _, _, _, _, _, _, h⟩ := takeRequest_frame s r; rw [h]
@[simp] theorem takeRequest_pins (r : Request) : (takeRequest r s).pins = s.pins := by
  obtain ⟨_, _, _, _, _, _, _, _, _, _, _, _, _, _, _, h⟩ := takeRequest_frame s r; rw [h]
@[simp] theorem takeRequest_inputs (r : Request) : (takeRequest r s).inputs = s.inputs := by
  obtain ⟨_, _, _, _, _, _, _, _, _, _, _, _, _, _, _, h⟩ := takeRequest_frame s r; rw [h]
@[simp] theorem takeRequest_refclk (r : Request) : (takeRequest r s).refclk = s.refclk := by
  obtain ⟨_, _, _, _, _, _, _, _, _, _, _, _, _, _, _, h⟩ := takeRequest_frame s r; rw [h]
@[simp] theorem takeRequest_drawCount (r : Request) : (takeRequest r s).drawCount = s.drawCount := by
  obtain ⟨_, _, _, _, _, _, _, _, _, _, _, _, _, _, _, h⟩ := takeRequest_frame s r; rw [h]
@[simp] theorem takeRequest_choiceCount (r : Request) : (takeRequest r s).choiceCount = s.choiceCount := by
  obtain ⟨_, _, _, _, _, _, _, _, _, _, _, _, _, _, _, h⟩ := takeRequest_frame s r; rw [h]
@[simp] theorem takeRequest_orderCount (r : Request) : (takeRequest r s).orderCount = s.orderCount := by
  obtain ⟨_, _, _, _, _, _, _, _, _, _, _, _, _, _, _, h⟩ := takeRequest_frame s r; rw [h]
@[simp] theorem takeRequest_counters (r : Request) : (takeRequest r s).counters = s.counters := by
  obtain ⟨_, _, _, _, _, _, _, _, _, _, _, _, _, _, _, h⟩ := takeRequest_frame s r; rw [h]

/-- What `removeMessage` can change. -/
theorem removeMessage_frame :
    ∃ x0 x1, removeMessage s = { s with slots := x0, inbox := x1 } := by
  unfold removeMessage
  repeat' (first | split | dsimp only)
  all_goals
    (repeat' apply Exists.intro)
    apply State.ext <;> first | with_reducible rfl | simp
@[simp] theorem removeMessage_pending : (removeMessage s).pending = s.pending := by
  obtain ⟨_, _, h⟩ := removeMessage_frame s; rw [h]
@[simp] theorem removeMessage_pins : (removeMessage s).pins = s.pins := by
  obtain ⟨_, _, h⟩ := removeMessage_frame s; rw [h]
@[simp] theorem removeMessage_inputs : (removeMessage s).inputs = s.inputs := by
  obtain ⟨_, _, h⟩ := removeMessage_frame s; rw [h]
@[simp] theorem removeMessage_refclk : (removeMessage s).refclk = s.refclk := by
  obtain ⟨_, _, h⟩ := removeMessage_frame s; rw [h]
@[simp] theorem removeMessage_drawCount : (removeMessage s).drawCount = s.drawCount := by
  obtain ⟨_, _, h⟩ := removeMessage_frame s; rw [h]
@[simp] theorem removeMessage_choiceCount : (removeMessage s).choiceCount = s.choiceCount := by
  obtain ⟨_, _, h⟩ := removeMessage_frame s; rw [h]
@[simp] theorem removeMessage_orderCount : (removeMessage s).orderCount = s.orderCount := by
  obtain ⟨_, _, h⟩ := removeMessage_frame s; rw [h]
@[simp] theorem removeMessage_station : (removeMessage s).station = s.station := by
  obtain ⟨_, _, h⟩ := removeMessage_frame s; rw [h]
@[simp] theorem removeMessage_counters : (removeMessage s).counters = s.counters := by
  obtain ⟨_, _, h⟩ := removeMessage_frame s; rw [h]
@[simp] theorem removeMessage_flags : (removeMessage s).flags = s.flags := by
  obtain ⟨_, _, h⟩ := removeMessage_frame s; rw [h]
@[simp] theorem removeMessage_line : (removeMessage s).line = s.line := by
  obtain ⟨_, _, h⟩ := removeMessage_frame s; rw [h]
@[simp] theorem removeMessage_assembler : (removeMessage s).assembler = s.assembler := by
  obtain ⟨_, _, h⟩ := removeMessage_frame s; rw [h]
@[simp] theorem removeMessage_table : (removeMessage s).table = s.table := by
  obtain ⟨_, _, h⟩ := removeMessage_frame s; rw [h]
@[simp] theorem removeMessage_decodeQueue : (removeMessage s).decodeQueue = s.decodeQueue := by
  obtain ⟨_, _, h⟩ := removeMessage_frame s; rw [h]
@[simp] theorem removeMessage_decoder : (removeMessage s).decoder = s.decoder := by
  obtain ⟨_, _, h⟩ := removeMessage_frame s; rw [h]
@[simp] theorem removeMessage_history : (removeMessage s).history = s.history := by
  obtain ⟨_, _, h⟩ := removeMessage_frame s; rw [h]
@[simp] theorem removeMessage_relays : (removeMessage s).relays = s.relays := by
  obtain ⟨_, _, h⟩ := removeMessage_frame s; rw [h]
@[simp] theorem removeMessage_outbox : (removeMessage s).outbox = s.outbox := by
  obtain ⟨_, _, h⟩ := removeMessage_frame s; rw [h]
@[simp] theorem removeMessage_reports : (removeMessage s).reports = s.reports := by
  obtain ⟨_, _, h⟩ := removeMessage_frame s; rw [h]
@[simp] theorem removeMessage_transmit : (removeMessage s).transmit = s.transmit := by
  obtain ⟨_, _, h⟩ := removeMessage_frame s; rw [h]
@[simp] theorem removeMessage_port : (removeMessage s).port = s.port := by
  obtain ⟨_, _, h⟩ := removeMessage_frame s; rw [h]

/-- What `commitResponse` can change. -/
theorem commitResponse_frame (r : Response) :
    ∃ x0 x1 x2 x3 x4 x5, commitResponse r s = { s with counters := x0, slots := x1, inbox := x2, outbox := x3, reports := x4, transmit := x5 } := by
  unfold commitResponse
  repeat' (first | split | dsimp only)
  all_goals
    (repeat' apply Exists.intro)
    apply State.ext <;> first | with_reducible rfl | simp
@[simp] theorem commitResponse_pending (r : Response) : (commitResponse r s).pending = s.pending := by
  obtain ⟨_, _, _, _, _, _, h⟩ := commitResponse_frame s r; rw [h]
@[simp] theorem commitResponse_pins (r : Response) : (commitResponse r s).pins = s.pins := by
  obtain ⟨_, _, _, _, _, _, h⟩ := commitResponse_frame s r; rw [h]
@[simp] theorem commitResponse_inputs (r : Response) : (commitResponse r s).inputs = s.inputs := by
  obtain ⟨_, _, _, _, _, _, h⟩ := commitResponse_frame s r; rw [h]
@[simp] theorem commitResponse_refclk (r : Response) : (commitResponse r s).refclk = s.refclk := by
  obtain ⟨_, _, _, _, _, _, h⟩ := commitResponse_frame s r; rw [h]
@[simp] theorem commitResponse_drawCount (r : Response) : (commitResponse r s).drawCount = s.drawCount := by
  obtain ⟨_, _, _, _, _, _, h⟩ := commitResponse_frame s r; rw [h]
@[simp] theorem commitResponse_choiceCount (r : Response) : (commitResponse r s).choiceCount = s.choiceCount := by
  obtain ⟨_, _, _, _, _, _, h⟩ := commitResponse_frame s r; rw [h]
@[simp] theorem commitResponse_orderCount (r : Response) : (commitResponse r s).orderCount = s.orderCount := by
  obtain ⟨_, _, _, _, _, _, h⟩ := commitResponse_frame s r; rw [h]
@[simp] theorem commitResponse_station (r : Response) : (commitResponse r s).station = s.station := by
  obtain ⟨_, _, _, _, _, _, h⟩ := commitResponse_frame s r; rw [h]
@[simp] theorem commitResponse_flags (r : Response) : (commitResponse r s).flags = s.flags := by
  obtain ⟨_, _, _, _, _, _, h⟩ := commitResponse_frame s r; rw [h]
@[simp] theorem commitResponse_line (r : Response) : (commitResponse r s).line = s.line := by
  obtain ⟨_, _, _, _, _, _, h⟩ := commitResponse_frame s r; rw [h]
@[simp] theorem commitResponse_assembler (r : Response) : (commitResponse r s).assembler = s.assembler := by
  obtain ⟨_, _, _, _, _, _, h⟩ := commitResponse_frame s r; rw [h]
@[simp] theorem commitResponse_table (r : Response) : (commitResponse r s).table = s.table := by
  obtain ⟨_, _, _, _, _, _, h⟩ := commitResponse_frame s r; rw [h]
@[simp] theorem commitResponse_decodeQueue (r : Response) : (commitResponse r s).decodeQueue = s.decodeQueue := by
  obtain ⟨_, _, _, _, _, _, h⟩ := commitResponse_frame s r; rw [h]
@[simp] theorem commitResponse_decoder (r : Response) : (commitResponse r s).decoder = s.decoder := by
  obtain ⟨_, _, _, _, _, _, h⟩ := commitResponse_frame s r; rw [h]
@[simp] theorem commitResponse_history (r : Response) : (commitResponse r s).history = s.history := by
  obtain ⟨_, _, _, _, _, _, h⟩ := commitResponse_frame s r; rw [h]
@[simp] theorem commitResponse_relays (r : Response) : (commitResponse r s).relays = s.relays := by
  obtain ⟨_, _, _, _, _, _, h⟩ := commitResponse_frame s r; rw [h]
@[simp] theorem commitResponse_port (r : Response) : (commitResponse r s).port = s.port := by
  obtain ⟨_, _, _, _, _, _, h⟩ := commitResponse_frame s r; rw [h]

/-- What `finishResponse` can change. -/
theorem finishResponse_frame (r : Response) :
    ∃ x0 x1 x2 x3 x4 x5 x6, finishResponse r s = { s with counters := x0, slots := x1, inbox := x2, outbox := x3, reports := x4, transmit := x5, port := x6 } := by
  unfold finishResponse
  repeat' (first | split | dsimp only)
  all_goals
    (repeat' apply Exists.intro)
    apply State.ext <;> first | with_reducible rfl | simp
@[simp] theorem finishResponse_pending (r : Response) : (finishResponse r s).pending = s.pending := by
  obtain ⟨_, _, _, _, _, _, _, h⟩ := finishResponse_frame s r; rw [h]
@[simp] theorem finishResponse_pins (r : Response) : (finishResponse r s).pins = s.pins := by
  obtain ⟨_, _, _, _, _, _, _, h⟩ := finishResponse_frame s r; rw [h]
@[simp] theorem finishResponse_inputs (r : Response) : (finishResponse r s).inputs = s.inputs := by
  obtain ⟨_, _, _, _, _, _, _, h⟩ := finishResponse_frame s r; rw [h]
@[simp] theorem finishResponse_refclk (r : Response) : (finishResponse r s).refclk = s.refclk := by
  obtain ⟨_, _, _, _, _, _, _, h⟩ := finishResponse_frame s r; rw [h]
@[simp] theorem finishResponse_drawCount (r : Response) : (finishResponse r s).drawCount = s.drawCount := by
  obtain ⟨_, _, _, _, _, _, _, h⟩ := finishResponse_frame s r; rw [h]
@[simp] theorem finishResponse_choiceCount (r : Response) : (finishResponse r s).choiceCount = s.choiceCount := by
  obtain ⟨_, _, _, _, _, _, _, h⟩ := finishResponse_frame s r; rw [h]
@[simp] theorem finishResponse_orderCount (r : Response) : (finishResponse r s).orderCount = s.orderCount := by
  obtain ⟨_, _, _, _, _, _, _, h⟩ := finishResponse_frame s r; rw [h]
@[simp] theorem finishResponse_station (r : Response) : (finishResponse r s).station = s.station := by
  obtain ⟨_, _, _, _, _, _, _, h⟩ := finishResponse_frame s r; rw [h]
@[simp] theorem finishResponse_flags (r : Response) : (finishResponse r s).flags = s.flags := by
  obtain ⟨_, _, _, _, _, _, _, h⟩ := finishResponse_frame s r; rw [h]
@[simp] theorem finishResponse_line (r : Response) : (finishResponse r s).line = s.line := by
  obtain ⟨_, _, _, _, _, _, _, h⟩ := finishResponse_frame s r; rw [h]
@[simp] theorem finishResponse_assembler (r : Response) : (finishResponse r s).assembler = s.assembler := by
  obtain ⟨_, _, _, _, _, _, _, h⟩ := finishResponse_frame s r; rw [h]
@[simp] theorem finishResponse_table (r : Response) : (finishResponse r s).table = s.table := by
  obtain ⟨_, _, _, _, _, _, _, h⟩ := finishResponse_frame s r; rw [h]
@[simp] theorem finishResponse_decodeQueue (r : Response) : (finishResponse r s).decodeQueue = s.decodeQueue := by
  obtain ⟨_, _, _, _, _, _, _, h⟩ := finishResponse_frame s r; rw [h]
@[simp] theorem finishResponse_decoder (r : Response) : (finishResponse r s).decoder = s.decoder := by
  obtain ⟨_, _, _, _, _, _, _, h⟩ := finishResponse_frame s r; rw [h]
@[simp] theorem finishResponse_history (r : Response) : (finishResponse r s).history = s.history := by
  obtain ⟨_, _, _, _, _, _, _, h⟩ := finishResponse_frame s r; rw [h]
@[simp] theorem finishResponse_relays (r : Response) : (finishResponse r s).relays = s.relays := by
  obtain ⟨_, _, _, _, _, _, _, h⟩ := finishResponse_frame s r; rw [h]

/-- What `requestByte` can change. -/
theorem requestByte_frame (b : Byte) :
    ∃ x0 x1 x2 x3 x4 x5 x6 x7 x8 x9 x10 x11 x12 x13 x14, requestByte b s = { s with station := x0, flags := x1, line := x2, assembler := x3, table := x4, decodeQueue := x5, decoder := x6, history := x7, slots := x8, inbox := x9, relays := x10, outbox := x11, reports := x12, transmit := x13, port := x14 } := by
  unfold requestByte
  repeat' (first | split | dsimp only)
  all_goals
    (repeat' apply Exists.intro)
    apply State.ext <;> first | with_reducible rfl | simp
@[simp] theorem requestByte_pending (b : Byte) : (requestByte b s).pending = s.pending := by
  obtain ⟨_, _, _, _, _, _, _, _, _, _, _, _, _, _, _, h⟩ := requestByte_frame s b; rw [h]
@[simp] theorem requestByte_pins (b : Byte) : (requestByte b s).pins = s.pins := by
  obtain ⟨_, _, _, _, _, _, _, _, _, _, _, _, _, _, _, h⟩ := requestByte_frame s b; rw [h]
@[simp] theorem requestByte_inputs (b : Byte) : (requestByte b s).inputs = s.inputs := by
  obtain ⟨_, _, _, _, _, _, _, _, _, _, _, _, _, _, _, h⟩ := requestByte_frame s b; rw [h]
@[simp] theorem requestByte_refclk (b : Byte) : (requestByte b s).refclk = s.refclk := by
  obtain ⟨_, _, _, _, _, _, _, _, _, _, _, _, _, _, _, h⟩ := requestByte_frame s b; rw [h]
@[simp] theorem requestByte_drawCount (b : Byte) : (requestByte b s).drawCount = s.drawCount := by
  obtain ⟨_, _, _, _, _, _, _, _, _, _, _, _, _, _, _, h⟩ := requestByte_frame s b; rw [h]
@[simp] theorem requestByte_choiceCount (b : Byte) : (requestByte b s).choiceCount = s.choiceCount := by
  obtain ⟨_, _, _, _, _, _, _, _, _, _, _, _, _, _, _, h⟩ := requestByte_frame s b; rw [h]
@[simp] theorem requestByte_orderCount (b : Byte) : (requestByte b s).orderCount = s.orderCount := by
  obtain ⟨_, _, _, _, _, _, _, _, _, _, _, _, _, _, _, h⟩ := requestByte_frame s b; rw [h]
@[simp] theorem requestByte_counters (b : Byte) : (requestByte b s).counters = s.counters := by
  obtain ⟨_, _, _, _, _, _, _, _, _, _, _, _, _, _, _, h⟩ := requestByte_frame s b; rw [h]

/-- What `responseByte` can change. -/
theorem responseByte_frame :
    ∃ x0 x1 x2 x3 x4 x5 x6, responseByte s = { s with counters := x0, slots := x1, inbox := x2, outbox := x3, reports := x4, transmit := x5, port := x6 } := by
  unfold responseByte
  repeat' (first | split | dsimp only)
  all_goals
    (repeat' apply Exists.intro)
    apply State.ext <;> first | with_reducible rfl | simp
@[simp] theorem responseByte_pending : (responseByte s).pending = s.pending := by
  obtain ⟨_, _, _, _, _, _, _, h⟩ := responseByte_frame s; rw [h]
@[simp] theorem responseByte_pins : (responseByte s).pins = s.pins := by
  obtain ⟨_, _, _, _, _, _, _, h⟩ := responseByte_frame s; rw [h]
@[simp] theorem responseByte_inputs : (responseByte s).inputs = s.inputs := by
  obtain ⟨_, _, _, _, _, _, _, h⟩ := responseByte_frame s; rw [h]
@[simp] theorem responseByte_refclk : (responseByte s).refclk = s.refclk := by
  obtain ⟨_, _, _, _, _, _, _, h⟩ := responseByte_frame s; rw [h]
@[simp] theorem responseByte_drawCount : (responseByte s).drawCount = s.drawCount := by
  obtain ⟨_, _, _, _, _, _, _, h⟩ := responseByte_frame s; rw [h]
@[simp] theorem responseByte_choiceCount : (responseByte s).choiceCount = s.choiceCount := by
  obtain ⟨_, _, _, _, _, _, _, h⟩ := responseByte_frame s; rw [h]
@[simp] theorem responseByte_orderCount : (responseByte s).orderCount = s.orderCount := by
  obtain ⟨_, _, _, _, _, _, _, h⟩ := responseByte_frame s; rw [h]
@[simp] theorem responseByte_station : (responseByte s).station = s.station := by
  obtain ⟨_, _, _, _, _, _, _, h⟩ := responseByte_frame s; rw [h]
@[simp] theorem responseByte_flags : (responseByte s).flags = s.flags := by
  obtain ⟨_, _, _, _, _, _, _, h⟩ := responseByte_frame s; rw [h]
@[simp] theorem responseByte_line : (responseByte s).line = s.line := by
  obtain ⟨_, _, _, _, _, _, _, h⟩ := responseByte_frame s; rw [h]
@[simp] theorem responseByte_assembler : (responseByte s).assembler = s.assembler := by
  obtain ⟨_, _, _, _, _, _, _, h⟩ := responseByte_frame s; rw [h]
@[simp] theorem responseByte_table : (responseByte s).table = s.table := by
  obtain ⟨_, _, _, _, _, _, _, h⟩ := responseByte_frame s; rw [h]
@[simp] theorem responseByte_decodeQueue : (responseByte s).decodeQueue = s.decodeQueue := by
  obtain ⟨_, _, _, _, _, _, _, h⟩ := responseByte_frame s; rw [h]
@[simp] theorem responseByte_decoder : (responseByte s).decoder = s.decoder := by
  obtain ⟨_, _, _, _, _, _, _, h⟩ := responseByte_frame s; rw [h]
@[simp] theorem responseByte_history : (responseByte s).history = s.history := by
  obtain ⟨_, _, _, _, _, _, _, h⟩ := responseByte_frame s; rw [h]
@[simp] theorem responseByte_relays : (responseByte s).relays = s.relays := by
  obtain ⟨_, _, _, _, _, _, _, h⟩ := responseByte_frame s; rw [h]

/-- What `byteComplete` can change. -/
theorem byteComplete_frame (b : Byte) :
    ∃ x0 x1 x2 x3 x4 x5 x6 x7 x8 x9 x10 x11 x12 x13 x14 x15, byteComplete b s = { s with station := x0, counters := x1, flags := x2, line := x3, assembler := x4, table := x5, decodeQueue := x6, decoder := x7, history := x8, slots := x9, inbox := x10, relays := x11, outbox := x12, reports := x13, transmit := x14, port := x15 } := by
  unfold byteComplete
  repeat' (first | split | dsimp only)
  all_goals
    (repeat' apply Exists.intro)
    apply State.ext <;> first | with_reducible rfl | simp
@[simp] theorem byteComplete_pending (b : Byte) : (byteComplete b s).pending = s.pending := by
  obtain ⟨_, _, _, _, _, _, _, _, _, _, _, _, _, _, _, _, h⟩ := byteComplete_frame s b; rw [h]
@[simp] theorem byteComplete_pins (b : Byte) : (byteComplete b s).pins = s.pins := by
  obtain ⟨_, _, _, _, _, _, _, _, _, _, _, _, _, _, _, _, h⟩ := byteComplete_frame s b; rw [h]
@[simp] theorem byteComplete_inputs (b : Byte) : (byteComplete b s).inputs = s.inputs := by
  obtain ⟨_, _, _, _, _, _, _, _, _, _, _, _, _, _, _, _, h⟩ := byteComplete_frame s b; rw [h]
@[simp] theorem byteComplete_refclk (b : Byte) : (byteComplete b s).refclk = s.refclk := by
  obtain ⟨_, _, _, _, _, _, _, _, _, _, _, _, _, _, _, _, h⟩ := byteComplete_frame s b; rw [h]
@[simp] theorem byteComplete_drawCount (b : Byte) : (byteComplete b s).drawCount = s.drawCount := by
  obtain ⟨_, _, _, _, _, _, _, _, _, _, _, _, _, _, _, _, h⟩ := byteComplete_frame s b; rw [h]
@[simp] theorem byteComplete_choiceCount (b : Byte) : (byteComplete b s).choiceCount = s.choiceCount := by
  obtain ⟨_, _, _, _, _, _, _, _, _, _, _, _, _, _, _, _, h⟩ := byteComplete_frame s b; rw [h]
@[simp] theorem byteComplete_orderCount (b : Byte) : (byteComplete b s).orderCount = s.orderCount := by
  obtain ⟨_, _, _, _, _, _, _, _, _, _, _, _, _, _, _, _, h⟩ := byteComplete_frame s b; rw [h]

/-- What `csnFall` can change. -/
theorem csnFall_frame :
    ∃ x0, csnFall s = { s with port := x0 } := by
  unfold csnFall
  repeat' (first | split | dsimp only)
  all_goals
    (repeat' apply Exists.intro)
    apply State.ext <;> first | with_reducible rfl | simp
@[simp] theorem csnFall_pending : (csnFall s).pending = s.pending := by
  obtain ⟨_, h⟩ := csnFall_frame s; rw [h]
@[simp] theorem csnFall_pins : (csnFall s).pins = s.pins := by
  obtain ⟨_, h⟩ := csnFall_frame s; rw [h]
@[simp] theorem csnFall_inputs : (csnFall s).inputs = s.inputs := by
  obtain ⟨_, h⟩ := csnFall_frame s; rw [h]
@[simp] theorem csnFall_refclk : (csnFall s).refclk = s.refclk := by
  obtain ⟨_, h⟩ := csnFall_frame s; rw [h]
@[simp] theorem csnFall_drawCount : (csnFall s).drawCount = s.drawCount := by
  obtain ⟨_, h⟩ := csnFall_frame s; rw [h]
@[simp] theorem csnFall_choiceCount : (csnFall s).choiceCount = s.choiceCount := by
  obtain ⟨_, h⟩ := csnFall_frame s; rw [h]
@[simp] theorem csnFall_orderCount : (csnFall s).orderCount = s.orderCount := by
  obtain ⟨_, h⟩ := csnFall_frame s; rw [h]
@[simp] theorem csnFall_station : (csnFall s).station = s.station := by
  obtain ⟨_, h⟩ := csnFall_frame s; rw [h]
@[simp] theorem csnFall_counters : (csnFall s).counters = s.counters := by
  obtain ⟨_, h⟩ := csnFall_frame s; rw [h]
@[simp] theorem csnFall_flags : (csnFall s).flags = s.flags := by
  obtain ⟨_, h⟩ := csnFall_frame s; rw [h]
@[simp] theorem csnFall_line : (csnFall s).line = s.line := by
  obtain ⟨_, h⟩ := csnFall_frame s; rw [h]
@[simp] theorem csnFall_assembler : (csnFall s).assembler = s.assembler := by
  obtain ⟨_, h⟩ := csnFall_frame s; rw [h]
@[simp] theorem csnFall_table : (csnFall s).table = s.table := by
  obtain ⟨_, h⟩ := csnFall_frame s; rw [h]
@[simp] theorem csnFall_decodeQueue : (csnFall s).decodeQueue = s.decodeQueue := by
  obtain ⟨_, h⟩ := csnFall_frame s; rw [h]
@[simp] theorem csnFall_decoder : (csnFall s).decoder = s.decoder := by
  obtain ⟨_, h⟩ := csnFall_frame s; rw [h]
@[simp] theorem csnFall_history : (csnFall s).history = s.history := by
  obtain ⟨_, h⟩ := csnFall_frame s; rw [h]
@[simp] theorem csnFall_slots : (csnFall s).slots = s.slots := by
  obtain ⟨_, h⟩ := csnFall_frame s; rw [h]
@[simp] theorem csnFall_inbox : (csnFall s).inbox = s.inbox := by
  obtain ⟨_, h⟩ := csnFall_frame s; rw [h]
@[simp] theorem csnFall_relays : (csnFall s).relays = s.relays := by
  obtain ⟨_, h⟩ := csnFall_frame s; rw [h]
@[simp] theorem csnFall_outbox : (csnFall s).outbox = s.outbox := by
  obtain ⟨_, h⟩ := csnFall_frame s; rw [h]
@[simp] theorem csnFall_reports : (csnFall s).reports = s.reports := by
  obtain ⟨_, h⟩ := csnFall_frame s; rw [h]
@[simp] theorem csnFall_transmit : (csnFall s).transmit = s.transmit := by
  obtain ⟨_, h⟩ := csnFall_frame s; rw [h]

/-- What `csnRise` can change. -/
theorem csnRise_frame :
    ∃ x0, csnRise s = { s with port := x0 } := by
  unfold csnRise
  repeat' (first | split | dsimp only)
  all_goals
    (repeat' apply Exists.intro)
    apply State.ext <;> first | with_reducible rfl | simp
@[simp] theorem csnRise_pending : (csnRise s).pending = s.pending := by
  obtain ⟨_, h⟩ := csnRise_frame s; rw [h]
@[simp] theorem csnRise_pins : (csnRise s).pins = s.pins := by
  obtain ⟨_, h⟩ := csnRise_frame s; rw [h]
@[simp] theorem csnRise_inputs : (csnRise s).inputs = s.inputs := by
  obtain ⟨_, h⟩ := csnRise_frame s; rw [h]
@[simp] theorem csnRise_refclk : (csnRise s).refclk = s.refclk := by
  obtain ⟨_, h⟩ := csnRise_frame s; rw [h]
@[simp] theorem csnRise_drawCount : (csnRise s).drawCount = s.drawCount := by
  obtain ⟨_, h⟩ := csnRise_frame s; rw [h]
@[simp] theorem csnRise_choiceCount : (csnRise s).choiceCount = s.choiceCount := by
  obtain ⟨_, h⟩ := csnRise_frame s; rw [h]
@[simp] theorem csnRise_orderCount : (csnRise s).orderCount = s.orderCount := by
  obtain ⟨_, h⟩ := csnRise_frame s; rw [h]
@[simp] theorem csnRise_station : (csnRise s).station = s.station := by
  obtain ⟨_, h⟩ := csnRise_frame s; rw [h]
@[simp] theorem csnRise_counters : (csnRise s).counters = s.counters := by
  obtain ⟨_, h⟩ := csnRise_frame s; rw [h]
@[simp] theorem csnRise_flags : (csnRise s).flags = s.flags := by
  obtain ⟨_, h⟩ := csnRise_frame s; rw [h]
@[simp] theorem csnRise_line : (csnRise s).line = s.line := by
  obtain ⟨_, h⟩ := csnRise_frame s; rw [h]
@[simp] theorem csnRise_assembler : (csnRise s).assembler = s.assembler := by
  obtain ⟨_, h⟩ := csnRise_frame s; rw [h]
@[simp] theorem csnRise_table : (csnRise s).table = s.table := by
  obtain ⟨_, h⟩ := csnRise_frame s; rw [h]
@[simp] theorem csnRise_decodeQueue : (csnRise s).decodeQueue = s.decodeQueue := by
  obtain ⟨_, h⟩ := csnRise_frame s; rw [h]
@[simp] theorem csnRise_decoder : (csnRise s).decoder = s.decoder := by
  obtain ⟨_, h⟩ := csnRise_frame s; rw [h]
@[simp] theorem csnRise_history : (csnRise s).history = s.history := by
  obtain ⟨_, h⟩ := csnRise_frame s; rw [h]
@[simp] theorem csnRise_slots : (csnRise s).slots = s.slots := by
  obtain ⟨_, h⟩ := csnRise_frame s; rw [h]
@[simp] theorem csnRise_inbox : (csnRise s).inbox = s.inbox := by
  obtain ⟨_, h⟩ := csnRise_frame s; rw [h]
@[simp] theorem csnRise_relays : (csnRise s).relays = s.relays := by
  obtain ⟨_, h⟩ := csnRise_frame s; rw [h]
@[simp] theorem csnRise_outbox : (csnRise s).outbox = s.outbox := by
  obtain ⟨_, h⟩ := csnRise_frame s; rw [h]
@[simp] theorem csnRise_reports : (csnRise s).reports = s.reports := by
  obtain ⟨_, h⟩ := csnRise_frame s; rw [h]
@[simp] theorem csnRise_transmit : (csnRise s).transmit = s.transmit := by
  obtain ⟨_, h⟩ := csnRise_frame s; rw [h]

/-- What `hostRequest` can change. -/
theorem hostRequest_frame (r : Request) :
    ∃ x0 x1 x2 x3 x4 x5 x6 x7 x8 x9 x10 x11 x12 x13 x14, hostRequest r s = { s with station := x0, flags := x1, line := x2, assembler := x3, table := x4, decodeQueue := x5, decoder := x6, history := x7, slots := x8, inbox := x9, relays := x10, outbox := x11, reports := x12, transmit := x13, port := x14 } := by
  unfold hostRequest
  repeat' (first | split | dsimp only)
  all_goals
    (repeat' apply Exists.intro)
    apply State.ext <;> first | with_reducible rfl | simp
@[simp] theorem hostRequest_pending (r : Request) : (hostRequest r s).pending = s.pending := by
  obtain ⟨_, _, _, _, _, _, _, _, _, _, _, _, _, _, _, h⟩ := hostRequest_frame s r; rw [h]
@[simp] theorem hostRequest_pins (r : Request) : (hostRequest r s).pins = s.pins := by
  obtain ⟨_, _, _, _, _, _, _, _, _, _, _, _, _, _, _, h⟩ := hostRequest_frame s r; rw [h]
@[simp] theorem hostRequest_inputs (r : Request) : (hostRequest r s).inputs = s.inputs := by
  obtain ⟨_, _, _, _, _, _, _, _, _, _, _, _, _, _, _, h⟩ := hostRequest_frame s r; rw [h]
@[simp] theorem hostRequest_refclk (r : Request) : (hostRequest r s).refclk = s.refclk := by
  obtain ⟨_, _, _, _, _, _, _, _, _, _, _, _, _, _, _, h⟩ := hostRequest_frame s r; rw [h]
@[simp] theorem hostRequest_drawCount (r : Request) : (hostRequest r s).drawCount = s.drawCount := by
  obtain ⟨_, _, _, _, _, _, _, _, _, _, _, _, _, _, _, h⟩ := hostRequest_frame s r; rw [h]
@[simp] theorem hostRequest_choiceCount (r : Request) : (hostRequest r s).choiceCount = s.choiceCount := by
  obtain ⟨_, _, _, _, _, _, _, _, _, _, _, _, _, _, _, h⟩ := hostRequest_frame s r; rw [h]
@[simp] theorem hostRequest_orderCount (r : Request) : (hostRequest r s).orderCount = s.orderCount := by
  obtain ⟨_, _, _, _, _, _, _, _, _, _, _, _, _, _, _, h⟩ := hostRequest_frame s r; rw [h]
@[simp] theorem hostRequest_counters (r : Request) : (hostRequest r s).counters = s.counters := by
  obtain ⟨_, _, _, _, _, _, _, _, _, _, _, _, _, _, _, h⟩ := hostRequest_frame s r; rw [h]

/-- What `clockToEnd` can change. -/
theorem clockToEnd_frame (c : Commit) :
    ∃ x0 x1 x2 x3 x4 x5 x6, clockToEnd c s = { s with counters := x0, slots := x1, inbox := x2, outbox := x3, reports := x4, transmit := x5, port := x6 } := by
  unfold clockToEnd
  repeat' (first | split | dsimp only)
  all_goals
    (repeat' apply Exists.intro)
    apply State.ext <;> first | with_reducible rfl | simp
@[simp] theorem clockToEnd_pending (c : Commit) : (clockToEnd c s).pending = s.pending := by
  obtain ⟨_, _, _, _, _, _, _, h⟩ := clockToEnd_frame s c; rw [h]
@[simp] theorem clockToEnd_pins (c : Commit) : (clockToEnd c s).pins = s.pins := by
  obtain ⟨_, _, _, _, _, _, _, h⟩ := clockToEnd_frame s c; rw [h]
@[simp] theorem clockToEnd_inputs (c : Commit) : (clockToEnd c s).inputs = s.inputs := by
  obtain ⟨_, _, _, _, _, _, _, h⟩ := clockToEnd_frame s c; rw [h]
@[simp] theorem clockToEnd_refclk (c : Commit) : (clockToEnd c s).refclk = s.refclk := by
  obtain ⟨_, _, _, _, _, _, _, h⟩ := clockToEnd_frame s c; rw [h]
@[simp] theorem clockToEnd_drawCount (c : Commit) : (clockToEnd c s).drawCount = s.drawCount := by
  obtain ⟨_, _, _, _, _, _, _, h⟩ := clockToEnd_frame s c; rw [h]
@[simp] theorem clockToEnd_choiceCount (c : Commit) : (clockToEnd c s).choiceCount = s.choiceCount := by
  obtain ⟨_, _, _, _, _, _, _, h⟩ := clockToEnd_frame s c; rw [h]
@[simp] theorem clockToEnd_orderCount (c : Commit) : (clockToEnd c s).orderCount = s.orderCount := by
  obtain ⟨_, _, _, _, _, _, _, h⟩ := clockToEnd_frame s c; rw [h]
@[simp] theorem clockToEnd_station (c : Commit) : (clockToEnd c s).station = s.station := by
  obtain ⟨_, _, _, _, _, _, _, h⟩ := clockToEnd_frame s c; rw [h]
@[simp] theorem clockToEnd_flags (c : Commit) : (clockToEnd c s).flags = s.flags := by
  obtain ⟨_, _, _, _, _, _, _, h⟩ := clockToEnd_frame s c; rw [h]
@[simp] theorem clockToEnd_line (c : Commit) : (clockToEnd c s).line = s.line := by
  obtain ⟨_, _, _, _, _, _, _, h⟩ := clockToEnd_frame s c; rw [h]
@[simp] theorem clockToEnd_assembler (c : Commit) : (clockToEnd c s).assembler = s.assembler := by
  obtain ⟨_, _, _, _, _, _, _, h⟩ := clockToEnd_frame s c; rw [h]
@[simp] theorem clockToEnd_table (c : Commit) : (clockToEnd c s).table = s.table := by
  obtain ⟨_, _, _, _, _, _, _, h⟩ := clockToEnd_frame s c; rw [h]
@[simp] theorem clockToEnd_decodeQueue (c : Commit) : (clockToEnd c s).decodeQueue = s.decodeQueue := by
  obtain ⟨_, _, _, _, _, _, _, h⟩ := clockToEnd_frame s c; rw [h]
@[simp] theorem clockToEnd_decoder (c : Commit) : (clockToEnd c s).decoder = s.decoder := by
  obtain ⟨_, _, _, _, _, _, _, h⟩ := clockToEnd_frame s c; rw [h]
@[simp] theorem clockToEnd_history (c : Commit) : (clockToEnd c s).history = s.history := by
  obtain ⟨_, _, _, _, _, _, _, h⟩ := clockToEnd_frame s c; rw [h]
@[simp] theorem clockToEnd_relays (c : Commit) : (clockToEnd c s).relays = s.relays := by
  obtain ⟨_, _, _, _, _, _, _, h⟩ := clockToEnd_frame s c; rw [h]

end Sys2Proof.Machine
end

