-- ==== Sys2Proof/Laws/Ops.lean ====
section
/-! SUPPORT. What the shared operations do, said once: time leaves alone all but its timers, a live effect is taken whole,
a store is read after it is written, a slot's hold is lifted. -/

namespace Sys2Proof.Machine

variable (s : State)

/-! ## Commands on a live and on a held part -/

theorem live_running {s : State} (h : s.station.held = false) (f : State → State) : live f s = settleAttn (f s) := by
  simp [live, h]

theorem live_held {s : State} (h : s.station.held = true) (f : State → State) : live f s = s := by
  simp [live, h]

/-! ## Time -/

@[simp] theorem advance_zero : advance 0 s = s := by simp [advance]

/-- What time can change of Station Control. -/
theorem advance_station (n : Nat) :
    ∃ m p, (advance n s).station = { s.station with milliTimer := m, milliPhase := p } := by
  unfold advance
  split
  · exact ⟨s.station.milliTimer, s.station.milliPhase, rfl⟩
  · split
    · exact ⟨s.station.milliTimer, s.station.milliPhase, rfl⟩
    · exact ⟨_, _, rfl⟩

/-- What time can change of the Line Interface. -/
theorem advance_line (n : Nat) :
    ∃ t p sp m l, (advance n s).line =
      { s.line with tick := t, tickPhase := p, spaceTimer := sp, markTimer := m, ledOut := l } := by
  unfold advance
  split
  · exact ⟨s.line.tick, s.line.tickPhase, s.line.spaceTimer, s.line.markTimer, s.line.ledOut, rfl⟩
  · split
    · exact ⟨s.line.tick, s.line.tickPhase, s.line.spaceTimer, s.line.markTimer, s.line.ledOut, rfl⟩
    · exact ⟨_, _, _, _, _, rfl⟩

/-- Time leaves the Transmit Controller's view. -/
theorem advance_transmit (n : Nat) : ∃ c, (advance n s).transmit = { s.transmit with controller := c } := by
  unfold advance
  split
  · exact ⟨s.transmit.controller, rfl⟩
  · split
    · exact ⟨s.transmit.controller, rfl⟩
    · exact ⟨_, rfl⟩

/-- The kinds of controller state that time leaves in place. -/
theorem advance_controller_idle (n : Nat) (h : s.transmit.controller = .idle) :
    (advance n s).transmit.controller = .idle := by
  unfold advance
  split
  · exact h
  · split
    · exact h
    · simp [controllerAfter, h]

theorem advance_controller_backoff (n : Nat) {g : Granted} {c u : Nat}
    (h : s.transmit.controller = .backoff g c u) :
    ∃ v, (advance n s).transmit.controller = .backoff g c v := by
  unfold advance
  split
  · exact ⟨u, h⟩
  · split
    · exact ⟨u, h⟩
    · simp only [controllerAfter, h]
      split
      · exact ⟨_, rfl⟩
      · exact ⟨_, rfl⟩

theorem advance_controller_pending (n : Nat) {g : Granted} {h : List Byte} {b : BodyCheck}
    (hc : s.transmit.controller = .sending g h b .pending) :
    (advance n s).transmit.controller = .sending g h b .pending := by
  unfold advance
  split
  · exact hc
  · split
    · exact hc
    · simp [controllerAfter, hc]

theorem advance_controller_accepted (n : Nat) {g : Granted} {h : List Byte} {b : BodyCheck} {e : Element} {k : Nat}
    (hc : s.transmit.controller = .sending g h b (.accepted e k)) :
    ∃ e' k', (advance n s).transmit.controller = .sending g h b (.accepted e' k') := by
  unfold advance
  split
  · exact ⟨e, k, hc⟩
  · split
    · exact ⟨e, k, hc⟩
    · simp only [controllerAfter, hc]
      exact ⟨_, _, rfl⟩

@[simp] theorem advance_station_state (n : Nat) : (advance n s).station.state = s.station.state := by
  obtain ⟨_, _, h⟩ := advance_station s n; rw [h]
@[simp] theorem advance_station_config (n : Nat) : (advance n s).station.config = s.station.config := by
  obtain ⟨_, _, h⟩ := advance_station s n; rw [h]
@[simp] theorem advance_station_session (n : Nat) : (advance n s).station.session = s.station.session := by
  obtain ⟨_, _, h⟩ := advance_station s n; rw [h]
@[simp] theorem advance_station_nextSequence (n : Nat) : (advance n s).station.nextSequence = s.station.nextSequence := by
  obtain ⟨_, _, h⟩ := advance_station s n; rw [h]
@[simp] theorem advance_station_listenDeadline (n : Nat) : (advance n s).station.listenDeadline = s.station.listenDeadline := by
  obtain ⟨_, _, h⟩ := advance_station s n; rw [h]
@[simp] theorem advance_station_held (n : Nat) : (advance n s).station.held = s.station.held := by
  obtain ⟨_, _, h⟩ := advance_station s n; rw [h]
@[simp] theorem advance_line_phase (n : Nat) : (advance n s).line.phase = s.line.phase := by
  obtain ⟨_, _, _, _, _, h⟩ := advance_line s n; rw [h]
@[simp] theorem advance_line_runCount (n : Nat) : (advance n s).line.runCount = s.line.runCount := by
  obtain ⟨_, _, _, _, _, h⟩ := advance_line s n; rw [h]
@[simp] theorem advance_line_runFirst (n : Nat) : (advance n s).line.runFirst = s.line.runFirst := by
  obtain ⟨_, _, _, _, _, h⟩ := advance_line s n; rw [h]
@[simp] theorem advance_line_markStamp (n : Nat) : (advance n s).line.markStamp = s.line.markStamp := by
  obtain ⟨_, _, _, _, _, h⟩ := advance_line s n; rw [h]
@[simp] theorem advance_line_silenceRaised (n : Nat) : (advance n s).line.silenceRaised = s.line.silenceRaised := by
  obtain ⟨_, _, _, _, _, h⟩ := advance_line s n; rw [h]
@[simp] theorem advance_line_medium (n : Nat) : (advance n s).line.medium = s.line.medium := by
  obtain ⟨_, _, _, _, _, h⟩ := advance_line s n; rw [h]
@[simp] theorem advance_line_blindingDeadline (n : Nat) : (advance n s).line.blindingDeadline = s.line.blindingDeadline := by
  obtain ⟨_, _, _, _, _, h⟩ := advance_line s n; rw [h]
@[simp] theorem advance_line_txact (n : Nat) : (advance n s).line.txact = s.line.txact := by
  obtain ⟨_, _, _, _, _, h⟩ := advance_line s n; rw [h]
@[simp] theorem advance_transmit_view (n : Nat) : (advance n s).transmit.view = s.transmit.view := by
  obtain ⟨_, h⟩ := advance_transmit s n; rw [h]
@[simp] theorem advance_cfg (n : Nat) : (advance n s).cfg = s.cfg := by
  simp [State.cfg]
@[simp] theorem advance_relayAt (n : Nat) (i : Nat) : relayAt (advance n s) i = relayAt s i := by
  simp [relayAt]
@[simp] theorem advance_entryAt (n : Nat) (i : Nat) : entryAt (advance n s) i = entryAt s i := by
  simp [entryAt]

/-! ### runToTick -/

@[simp] theorem runToTick_station_state (n : Nat) : (runToTick n s).station.state = s.station.state := by
  simp [runToTick]
@[simp] theorem runToTick_station_config (n : Nat) : (runToTick n s).station.config = s.station.config := by
  simp [runToTick]
@[simp] theorem runToTick_station_session (n : Nat) : (runToTick n s).station.session = s.station.session := by
  simp [runToTick]
@[simp] theorem runToTick_station_nextSequence (n : Nat) : (runToTick n s).station.nextSequence = s.station.nextSequence := by
  simp [runToTick]
@[simp] theorem runToTick_station_listenDeadline (n : Nat) : (runToTick n s).station.listenDeadline = s.station.listenDeadline := by
  simp [runToTick]
@[simp] theorem runToTick_station_held (n : Nat) : (runToTick n s).station.held = s.station.held := by
  simp [runToTick]
@[simp] theorem runToTick_line_phase (n : Nat) : (runToTick n s).line.phase = s.line.phase := by
  simp [runToTick]
@[simp] theorem runToTick_line_runCount (n : Nat) : (runToTick n s).line.runCount = s.line.runCount := by
  simp [runToTick]
@[simp] theorem runToTick_line_runFirst (n : Nat) : (runToTick n s).line.runFirst = s.line.runFirst := by
  simp [runToTick]
@[simp] theorem runToTick_line_markStamp (n : Nat) : (runToTick n s).line.markStamp = s.line.markStamp := by
  simp [runToTick]
@[simp] theorem runToTick_line_silenceRaised (n : Nat) : (runToTick n s).line.silenceRaised = s.line.silenceRaised := by
  simp [runToTick]
@[simp] theorem runToTick_line_medium (n : Nat) : (runToTick n s).line.medium = s.line.medium := by
  simp [runToTick]
@[simp] theorem runToTick_line_blindingDeadline (n : Nat) : (runToTick n s).line.blindingDeadline = s.line.blindingDeadline := by
  simp [runToTick]
@[simp] theorem runToTick_line_txact (n : Nat) : (runToTick n s).line.txact = s.line.txact := by
  simp [runToTick]
@[simp] theorem runToTick_transmit_view (n : Nat) : (runToTick n s).transmit.view = s.transmit.view := by
  simp [runToTick]
@[simp] theorem runToTick_cfg (n : Nat) : (runToTick n s).cfg = s.cfg := by
  simp [State.cfg]
@[simp] theorem runToTick_relayAt (n : Nat) (i : Nat) : relayAt (runToTick n s) i = relayAt s i := by
  simp [relayAt]
@[simp] theorem runToTick_entryAt (n : Nat) (i : Nat) : entryAt (runToTick n s) i = entryAt s i := by
  simp [entryAt]

/-! ### runToMilli -/

@[simp] theorem runToMilli_station_state (d : Millis) : (runToMilli d s).station.state = s.station.state := by
  simp [runToMilli]
@[simp] theorem runToMilli_station_config (d : Millis) : (runToMilli d s).station.config = s.station.config := by
  simp [runToMilli]
@[simp] theorem runToMilli_station_session (d : Millis) : (runToMilli d s).station.session = s.station.session := by
  simp [runToMilli]
@[simp] theorem runToMilli_station_nextSequence (d : Millis) : (runToMilli d s).station.nextSequence = s.station.nextSequence := by
  simp [runToMilli]
@[simp] theorem runToMilli_station_listenDeadline (d : Millis) : (runToMilli d s).station.listenDeadline = s.station.listenDeadline := by
  simp [runToMilli]
@[simp] theorem runToMilli_station_held (d : Millis) : (runToMilli d s).station.held = s.station.held := by
  simp [runToMilli]
@[simp] theorem runToMilli_line_phase (d : Millis) : (runToMilli d s).line.phase = s.line.phase := by
  simp [runToMilli]
@[simp] theorem runToMilli_line_runCount (d : Millis) : (runToMilli d s).line.runCount = s.line.runCount := by
  simp [runToMilli]
@[simp] theorem runToMilli_line_runFirst (d : Millis) : (runToMilli d s).line.runFirst = s.line.runFirst := by
  simp [runToMilli]
@[simp] theorem runToMilli_line_markStamp (d : Millis) : (runToMilli d s).line.markStamp = s.line.markStamp := by
  simp [runToMilli]
@[simp] theorem runToMilli_line_silenceRaised (d : Millis) : (runToMilli d s).line.silenceRaised = s.line.silenceRaised := by
  simp [runToMilli]
@[simp] theorem runToMilli_line_medium (d : Millis) : (runToMilli d s).line.medium = s.line.medium := by
  simp [runToMilli]
@[simp] theorem runToMilli_line_blindingDeadline (d : Millis) : (runToMilli d s).line.blindingDeadline = s.line.blindingDeadline := by
  simp [runToMilli]
@[simp] theorem runToMilli_line_txact (d : Millis) : (runToMilli d s).line.txact = s.line.txact := by
  simp [runToMilli]
@[simp] theorem runToMilli_transmit_view (d : Millis) : (runToMilli d s).transmit.view = s.transmit.view := by
  simp [runToMilli]
@[simp] theorem runToMilli_cfg (d : Millis) : (runToMilli d s).cfg = s.cfg := by
  simp [State.cfg]
@[simp] theorem runToMilli_relayAt (d : Millis) (i : Nat) : relayAt (runToMilli d s) i = relayAt s i := by
  simp [relayAt]
@[simp] theorem runToMilli_entryAt (d : Millis) (i : Nat) : entryAt (runToMilli d s) i = entryAt s i := by
  simp [entryAt]

/-! ### runToPeriod -/

@[simp] theorem runToPeriod_station_state (n : Nat) : (runToPeriod n s).station.state = s.station.state := by
  simp [runToPeriod]
@[simp] theorem runToPeriod_station_config (n : Nat) : (runToPeriod n s).station.config = s.station.config := by
  simp [runToPeriod]
@[simp] theorem runToPeriod_station_session (n : Nat) : (runToPeriod n s).station.session = s.station.session := by
  simp [runToPeriod]
@[simp] theorem runToPeriod_station_nextSequence (n : Nat) : (runToPeriod n s).station.nextSequence = s.station.nextSequence := by
  simp [runToPeriod]
@[simp] theorem runToPeriod_station_listenDeadline (n : Nat) : (runToPeriod n s).station.listenDeadline = s.station.listenDeadline := by
  simp [runToPeriod]
@[simp] theorem runToPeriod_station_held (n : Nat) : (runToPeriod n s).station.held = s.station.held := by
  simp [runToPeriod]
@[simp] theorem runToPeriod_line_phase (n : Nat) : (runToPeriod n s).line.phase = s.line.phase := by
  simp [runToPeriod]
@[simp] theorem runToPeriod_line_runCount (n : Nat) : (runToPeriod n s).line.runCount = s.line.runCount := by
  simp [runToPeriod]
@[simp] theorem runToPeriod_line_runFirst (n : Nat) : (runToPeriod n s).line.runFirst = s.line.runFirst := by
  simp [runToPeriod]
@[simp] theorem runToPeriod_line_markStamp (n : Nat) : (runToPeriod n s).line.markStamp = s.line.markStamp := by
  simp [runToPeriod]
@[simp] theorem runToPeriod_line_silenceRaised (n : Nat) : (runToPeriod n s).line.silenceRaised = s.line.silenceRaised := by
  simp [runToPeriod]
@[simp] theorem runToPeriod_line_medium (n : Nat) : (runToPeriod n s).line.medium = s.line.medium := by
  simp [runToPeriod]
@[simp] theorem runToPeriod_line_blindingDeadline (n : Nat) : (runToPeriod n s).line.blindingDeadline = s.line.blindingDeadline := by
  simp [runToPeriod]
@[simp] theorem runToPeriod_line_txact (n : Nat) : (runToPeriod n s).line.txact = s.line.txact := by
  simp [runToPeriod]
@[simp] theorem runToPeriod_transmit_view (n : Nat) : (runToPeriod n s).transmit.view = s.transmit.view := by
  simp [runToPeriod]
@[simp] theorem runToPeriod_cfg (n : Nat) : (runToPeriod n s).cfg = s.cfg := by
  simp [State.cfg]
@[simp] theorem runToPeriod_relayAt (n : Nat) (i : Nat) : relayAt (runToPeriod n s) i = relayAt s i := by
  simp [relayAt]
@[simp] theorem runToPeriod_entryAt (n : Nat) (i : Nat) : entryAt (runToPeriod n s) i = entryAt s i := by
  simp [entryAt]

end Sys2Proof.Machine
end

