-- ==== Sys2Proof/Laws/Terms.lean ====
section
/-! SUPPORT. The shared operations in the terms of the statements: one lemma for each that says all it can do. -/

namespace Sys2Proof.Machine

/-! ## Lists and places -/

/-- A place changed is a place set, where the place holds something. -/
theorem modify_eq_set {α : Type} (l : List α) (i : Nat) (f : α → α) {a : α} (h : l[i]? = some a) :
    l.modify i f = l.set i (f a) := by
  apply List.ext_getElem?
  intro j
  rw [List.getElem?_modify, List.getElem?_set]
  by_cases hij : i = j
  · subst hij
    rw [h]
    obtain ⟨hl, -⟩ := List.getElem?_eq_some_iff.mp h
    simp [hl]
  · simp [hij]

/-- A place that holds something holds what it is set to. -/
theorem getElem?_set_of_some {α : Type} (l : List α) (i : Nat) (b : α) {a : α} (h : l[i]? = some a) :
    (l.set i b)[i]? = some b := by
  obtain ⟨hl, -⟩ := List.getElem?_eq_some_iff.mp h
  simp [hl]

/-- A place set and then removed is a place removed. -/
theorem eraseIdx_set_same {α : Type} : ∀ (l : List α) (i : Nat) (b : α), (l.set i b).eraseIdx i = l.eraseIdx i
  | [], _, _ => rfl
  | _ :: _, 0, _ => rfl
  | a :: l, i + 1, b => by simp [eraseIdx_set_same l i b]

/-- The relay item at an index stands in the schedule. -/
theorem relays_of_relayAt {s : State} {i : Nat} {r : RelayItem} (h : relayAt s i = some r) :
    s.relays[i]? = some (some r) := by
  unfold relayAt at h
  rw [List.getD_eq_getElem?_getD] at h
  cases hx : s.relays[i]? with
  | none => simp [hx] at h
  | some x => simp [hx] at h; rw [h]

/-- What stands in the schedule is the relay item at its index. -/
theorem relayAt_of_relays {s : State} {i : Nat} {r : RelayItem} (h : s.relays[i]? = some (some r)) :
    relayAt s i = some r := by
  unfold relayAt
  rw [List.getD_eq_getElem?_getD, h]; rfl

/-- The entry at an index stands in the table. -/
theorem table_of_entryAt {s : State} {i : Nat} {r : Entry} (h : entryAt s i = some r) :
    s.table[i]? = some (some r) := by
  unfold entryAt at h
  rw [List.getD_eq_getElem?_getD] at h
  cases hx : s.table[i]? with
  | none => simp [hx] at h
  | some x => simp [hx] at h; rw [h]

/-- What stands in the table is the entry at its index. -/
theorem entryAt_of_table {s : State} {i : Nat} {r : Entry} (h : s.table[i]? = some (some r)) :
    entryAt s i = some r := by
  unfold entryAt
  rw [List.getD_eq_getElem?_getD, h]; rfl

/-! ## Slots -/

/-- A hold lifted from a slot (R99). -/
theorem settle_setHold (h : Holder) (sl : Slot) : (sl.setHold h false).settle = slotWithout h sl := by
  obtain ⟨p, a, b, c, d⟩ := sl
  cases h <;> cases a <;> cases b <;> cases c <;> cases d <;> rfl

/-- A hold lifted, as a function of the slot (R99). -/
theorem settle_setHold_fun (h : Holder) :
    (fun sl : Slot => (sl.setHold h false).settle) = slotWithout h := funext (settle_setHold h)

/-- The lowest free slot is the first that is free (R97). -/
theorem lowestFree_eq (l : List Slot) (k : Nat) (sl : Slot) (h : l[k]? = some sl) (hf : sl.isFree = true)
  (hm : ∀ j x, j < k → l[j]? = some x → x.isFree = false) : lowestFree l = k := by
  unfold lowestFree
  obtain ⟨hl, hx⟩ := List.getElem?_eq_some_iff.mp h
  have : l.findIdx? Slot.isFree = some k := by
    rw [List.findIdx?_eq_some_iff_getElem]
    refine ⟨hl, by rw [hx]; exact hf, ?_⟩
    intro j hj
    rw [hm j _ hj (List.getElem?_eq_getElem (by omega))]; simp
  rw [this]; rfl

/-! ## Reports and repeats -/

/-- A grant follows its item (R144). -/
theorem shift_eq_controllerWithout (i : Nat) (c : Controller) : c.shift i = controllerWithout i c := by
  have hg : ∀ g : Granted, g.shift i = grantAfter i g := by intro g; cases g <;> rfl
  cases c <;> simp [Controller.shift, controllerWithout, hg]

/-- The report of an item (R154). -/
theorem report_eq_reportOf (o : OriginItem) : o.report = reportOf o := by
  simp [OriginItem.report, reportOf, OriginItem.outcome]

/-- A report filed (R155). -/
theorem fileReport_eq_filed (i : Nat) (o : OriginItem) (s : State) : fileReport i o s = filed i o s := by
  simp [fileReport, removeOrigin, releaseSlot, filed, shift_eq_controllerWithout, report_eq_reportOf,
    settle_setHold_fun]

/-- All that making a report can do (R155). -/
theorem makeReport_eq_reported (i : Nat) (s : State) {o : OriginItem} (h : s.outbox[i]? = some o) :
    makeReport i s = reported i o s := by
  simp only [makeReport, h, reported, fileReport_eq_filed]
  split
  · rfl
  · simp [updateOrigin, modify_eq_set _ _ _ h]

/-- The deferrals of the repeat that ends play no part (R150). -/
theorem repeatEnds_congr (sent : Bool) (i : Nat) (o : OriginItem) (k : Nat) (s t : State)
    (h : RepeatEnds sent i { o with deferrals := k } { s with outbox := s.outbox.set i { o with deferrals := k } } t) :
    RepeatEnds sent i o s t := by
  obtain ⟨h1, h2, h3⟩ := h
  have e : repeatOver sent { o with deferrals := k } = repeatOver sent o := by cases sent <;> rfl
  rw [e] at h1 h2 h3
  refine ⟨?_, ?_, ?_⟩
  · intro hl
    obtain ⟨d, hd, ht⟩ := h1 hl
    refine ⟨d, hd, ?_⟩
    rw [ht]; cases sent <;> simp
  · intro a b
    rw [h2 a b]; cases sent <;> simp [State.cfg]
  · intro a b
    rw [h3 a b]
    cases sent <;> (simp only [reported, filed, eraseIdx_set_same, List.set_set, Bool.false_eq_true, if_false, if_true])

/-- All that the end of a repeat can do (R150). -/
theorem endRepeat_ends (sent : Bool) (i : Nat) (s : State) {o : OriginItem} (h : s.outbox[i]? = some o) :
    RepeatEnds sent i o s (endRepeat sent i s) := by
  have ho : o.repeatEnded sent = repeatOver sent o := by
    cases sent <;> simp [OriginItem.repeatEnded, repeatOver]
  unfold RepeatEnds endRepeat
  simp only [h, ho]
  have hs1 : (if sent = true then count Counter.originsSent s else s)
      = (if sent then { s with counters := s.counters.bump .originsSent } else s) := by
    rfl
  rw [hs1]
  generalize hs : (if sent then { s with counters := s.counters.bump .originsSent } else s : State) = s1
  have e1 : s1.outbox = s.outbox := by rw [← hs]; split <;> rfl
  have e2 : s1.cfg = s.cfg := by rw [← hs]; split <;> rfl
  have e3 : s1.station = s.station := by rw [← hs]; split <;> rfl
  have e4 : s1.drawCount = s.drawCount := by rw [← hs]; split <;> rfl
  have ho1 : (repeatOver sent o).repeatsRequested = o.repeatsRequested := rfl
  have ho2 : (repeatOver sent o).identity = o.identity := rfl
  rw [ho1, ho2]
  refine ⟨?_, ?_, ?_⟩
  · intro hlt
    refine ⟨s1.nextDraw (s1.cfg.holdOffRange o.identity.urgent), ?_, ?_⟩
    · intro hw
      unfold State.nextDraw ConfigRecord.holdOffRange
      rw [e2]
      split <;> (apply Nat.mod_lt; omega)
    · rw [if_pos hlt, updateOrigin, modify_eq_set _ _ _ (a := o) (by simp [State.drawn, e1, h])]
      simp only [State.drawn, e1, e4, e3, deadlineAfter]
  · intro heq h1
    rw [if_neg (by omega), if_pos h1, updateOrigin, modify_eq_set _ _ _ (a := o) (by simp [e1, h])]
    simp only [e1, e3, e2, deadlineAfter, ConfigRecord.windowMs]
  · intro heq h0
    rw [if_neg (by omega), if_neg (by omega)]
    rw [updateOrigin, modify_eq_set _ _ _ (a := o) (by simp [e1, h])]
    rw [makeReport_eq_reported _ _ (o := repeatOver sent o) (by simp only [e1]; exact getElem?_set_of_some _ _ _ h)]
    simp only [reported, filed, e1, eraseIdx_set_same, List.set_set]

/-! ## Relay items and deferrals -/

/-- A relay item removed (R115, R116, R120). -/
theorem dropRelay_eq_relayGone (i : Nat) (r : RelayItem) (s : State) : dropRelay i r s = relayGone i r s := by
  simp [dropRelay, relayGone, releaseSlot, settle_setHold_fun]

/-- All that a deferral can do (R131, R132). -/
theorem deferGranted_defers (g : Granted) (s : State) :
    Defers g s (deferGranted g s) := by
  cases g with
  | relay i =>
    intro r hr
    have hg := relays_of_relayAt hr
    have ha : addDeferral (.relay i) s
        = { s with relays := s.relays.set i (some { r with deferrals := r.deferrals + 1 }) } := by
      simp [addDeferral, updateRelay, modify_eq_set _ _ _ hg]
    have hd : grantedDeferrals (addDeferral (.relay i) s) (.relay i) = r.deferrals + 1 := by
      rw [ha]; simp only [grantedDeferrals]
      rw [relayAt_of_relays (r := { r with deferrals := r.deferrals + 1 }) (getElem?_set_of_some _ _ _ hg)]; rfl
    have hc : (addDeferral (.relay i) s).cfg = s.cfg := by rw [ha]; rfl
    constructor
    · intro hlt
      simp only [deferGranted, hd, hc]
      rw [if_neg (by omega), ha]
    · intro heq
      simp only [deferGranted, hd, hc]
      rw [if_pos (by omega), abandon]
      have : relayAt (setController .idle (count .transmissionsAbandoned (addDeferral (.relay i) s))) i
          = some { r with deferrals := r.deferrals + 1 } := by
        rw [ha]; exact relayAt_of_relays (getElem?_set_of_some _ _ _ hg)
      simp only [this, dropRelay_eq_relayGone]
      rw [ha]; simp [relayGone, setController, count]
  | origin i =>
    intro o ho
    have ha : addDeferral (.origin i) s
        = { s with outbox := s.outbox.set i { o with deferrals := o.deferrals + 1 } } := by
      simp [addDeferral, updateOrigin, modify_eq_set _ _ _ ho]
    have hd : grantedDeferrals (addDeferral (.origin i) s) (.origin i) = o.deferrals + 1 := by
      rw [ha]; simp only [grantedDeferrals]
      rw [getElem?_set_of_some _ _ _ ho]; rfl
    have hc : (addDeferral (.origin i) s).cfg = s.cfg := by rw [ha]; rfl
    constructor
    · intro hlt
      simp only [deferGranted, hd, hc]
      rw [if_neg (by omega), ha]
    · intro heq
      simp only [deferGranted, hd, hc]
      rw [if_pos (by omega), abandon, ha]
      apply repeatEnds_congr false i o (o.deferrals + 1)
      exact endRepeat_ends false i
        (setController .idle (count .transmissionsAbandoned
          { s with outbox := s.outbox.set i { o with deferrals := o.deferrals + 1 } }))
        (getElem?_set_of_some _ _ _ ho)

/-- A relay item granted (R129). -/
theorem markContending_relay (s : State) (i : Nat) (r : RelayItem) (h : relayAt s i = some r) :
   markContending (.relay i) s = { s with relays := s.relays.set i (some { r with state := r.state.contend }) } := by
  simp [markContending, updateRelay, modify_eq_set _ _ _ (relays_of_relayAt h)]

/-- An origin item granted (R129). -/
theorem markContending_origin (s : State) (i : Nat) (r : OriginItem) (h : s.outbox[i]? = some r) :
   markContending (.origin i) s = { s with outbox := s.outbox.set i { r with state := r.state.contend } } := by
  simp [markContending, updateOrigin, modify_eq_set _ _ _ h]

/-- A backoff draw is in its range (R129). -/
theorem nextDraw_backoff_lt (s : State) (b : Bool) : s.nextDraw (backoffRange b) < if b then 4 else 8 := by
  unfold State.nextDraw backoffRange; apply Nat.mod_lt; split <;> omega

/-! ## The Copy Assembler -/

/-- One more header symbol (R38). -/
theorem takeHeaderSymbol_eq (a : Assembler) (v : Int) (e : Bool) (h : a.headerSums.length = 64) :
    a.takeHeaderSymbol v e = headerTaken a v e := by
  unfold Assembler.takeHeaderSymbol headerTaken
  have hl : a.headerIndex % 64 < a.headerSums.length := by rw [h]; exact Nat.mod_lt _ (by omega)
  have := modify_eq_set a.headerSums (a.headerIndex % 64) (fun x => x + v) (List.getElem?_eq_getElem hl)
  simp only [Config.headerBits, this, List.getD_eq_getElem?_getD, List.getElem?_eq_getElem hl]
  rfl

/-- M is N / 8 (R12). -/
theorem roundLength_of_coded (l : Nat) : (16 * l + 40) / 8 = roundLength l := by unfold roundLength; omega

/-- One more body symbol (R43). -/
theorem takeBodySymbol_eq (l : Nat) (a : Assembler) (v : Int) (e : Bool) :
    a.takeBodySymbol (roundLength l) v e = bodyTaken l a v e := by
  unfold Assembler.takeBodySymbol bodyTaken
  rw [roundLength_of_coded]; rfl

/-- The end of a copy with a decided header (R44, R45, R48). -/
theorem closeCopy_eq_copyEnded (next : AssemblerPhase) (s : State) (h : Header) (hd : s.assembler.decided = some h) :
    closeCopy next s = copyEnded next h s := by
  simp only [closeCopy, Assembler.record, hd, Option.map_some, copyEnded, setAssembler, codedLength,
    giveVerdict_assembler]

/-! ## The checks of a silence -/

/-- A report of IDLE, and what it leaves where the medium is IDLE already (R25, R26). -/
theorem setMedium_idle (s : State) :
    setMedium .idle s =
      { s with
        line := { s.line with medium := .idle }
        transmit := { s.transmit with view := if s.line.medium = .busy then .idle else s.transmit.view } } := by
  unfold setMedium
  split
  · rename_i h
    rw [h, if_neg (by decide)]
    apply State.ext <;> simp [← h]
  · rename_i h
    have : s.line.medium = .busy := by revert h; cases s.line.medium <;> simp
    rw [this, if_pos rfl]; rfl

/-- With neither a grant nor a completion due, nothing is left to take (R127, R133). -/
theorem takeChecks_of_settled (n : Nat) (s : State) (h : nextCheck s = s) : takeChecks n s = s := by
  induction n with
  | zero => rfl
  | succ n ih => rw [takeChecks, h, ih]

/-- An update of a relay item makes none. -/
theorem relayAt_updateRelay_none (i j : Nat) (f : RelayItem → RelayItem) (s : State) (h : relayAt s i = none) :
    relayAt (updateRelay j f s) i = none := by
  simp only [relayAt, List.getD_eq_getElem?_getD, updateRelay, List.getElem?_modify] at h ⊢
  cases hx : s.relays[i]? with
  | none => simp
  | some x =>
    simp only [hx, Option.getD_some] at h; subst h
    by_cases hj : j = i <;> simp [hj]

/-- The removal of a relay item makes none. -/
theorem relayAt_dropRelay_none (i j : Nat) (r : RelayItem) (s : State) (h : relayAt s i = none) :
    relayAt (dropRelay j r s) i = none := by
  simp only [relayAt, List.getD_eq_getElem?_getD, dropRelay, releaseSlot, List.getElem?_set] at h ⊢
  split
  · split <;> simp
  · exact h

/-- The relay item at an index is the schedule's. -/
theorem relayAt_congr {s t : State} (i : Nat) (h : t.relays = s.relays) : relayAt t i = relayAt s i := by
  unfold relayAt; rw [h]

/-- A deferral makes no relay item. -/
theorem relayAt_deferGranted_none (i : Nat) (g : Granted) (s : State) (h : relayAt s i = none) :
    relayAt (deferGranted g s) i = none := by
  have ha : relayAt (addDeferral g s) i = none := by
    cases g with
    | relay j => exact relayAt_updateRelay_none i j _ s h
    | origin j => exact h
  unfold deferGranted
  dsimp only
  split
  · have hc : relayAt (setController .idle (count .transmissionsAbandoned (addDeferral g s))) i = none := ha
    unfold abandon
    dsimp only
    split
    · split
      · exact relayAt_dropRelay_none i _ _ _ hc
      · exact hc
    · rw [relayAt_congr i (endRepeat_relays _ _ _)]; exact hc
  · exact ha

/-- A grant makes no relay item. -/
theorem relayAt_grant_none (i : Nat) (s : State) (h : relayAt s i = none) : relayAt (grant s) i = none := by
  unfold grant
  split
  · split
    · rename_i g _
      have : relayAt (drawBackoff g (markContending g s)) i = none := by
        cases g with
        | relay j => exact relayAt_updateRelay_none i j _ s h
        | origin j => exact h
      unfold grantItem
      dsimp only
      split
      · exact relayAt_deferGranted_none i g _ this
      · exact this
    · exact h
  · exact h

/-- A backoff completion makes no relay item. -/
theorem relayAt_backoffCompletion_none (i : Nat) (s : State) (h : relayAt s i = none) :
    relayAt (backoffCompletion s) i = none := by
  unfold backoffCompletion
  split
  · split
    · split
      · split
        · rename_i r _
          split
          · exact relayAt_dropRelay_none i _ r s h
          · exact relayAt_updateRelay_none i _ _ s h
        · exact h
      · split
        · exact h
        · exact h
    · exact h
  · exact h

/-- A check makes no relay item. -/
theorem relayAt_nextCheck_none (i : Nat) (s : State) (h : relayAt s i = none) : relayAt (nextCheck s) i = none := by
  unfold nextCheck
  split
  · exact relayAt_grant_none i s h
  · exact relayAt_backoffCompletion_none i s h

/-- The checks of an instant make no relay item. -/
theorem relayAt_takeChecks_none (i n : Nat) (s : State) (h : relayAt s i = none) : relayAt (takeChecks n s) i = none := by
  induction n generalizing s with
  | zero => exact h
  | succ n ih => exact ih _ (relayAt_nextCheck_none i _ h)

/-- What a relay item makes of a DUPLICATE of its key (R114). -/
theorem relayAt_hearDuplicate (i : Nat) (k : Key) (s : State) :
    relayAt (hearDuplicate k s) i = (relayAt s i).map fun r => r.hear k := by
  simp only [relayAt, hearDuplicate, List.getD_eq_getElem?_getD, List.getElem?_map]
  cases s.relays[i]? <;> rfl
/-! ## The Combining Table -/

/-- A key that no entry holds (R49). -/
theorem findKey_eq_none (s : State) (k : Key) : findKey s.table k = none ↔ ∀ i e, entryAt s i = some e → e.key ≠ k := by
  unfold findKey
  rw [List.findIdx?_eq_none_iff]
  constructor
  · intro h i e he hk
    have := h (some e) (List.mem_of_getElem? (table_of_entryAt he))
    simp [hk] at this
  · intro h x hx
    obtain ⟨i, hi⟩ := List.getElem?_of_mem hx
    cases x with
    | none => simp
    | some e => have := h i e (entryAt_of_table hi); simp [this]

/-- The entry that holds a key (R49). -/
theorem findKey_eq_some (s : State) (k : Key) (i : Nat) (e : Entry) (he : entryAt s i = some e) (hk : e.key = k)
   (hf : ∀ j f, j < i → entryAt s j = some f → f.key ≠ k) : findKey s.table k = some i := by
  unfold findKey
  rw [List.findIdx?_eq_some_iff_getElem]
  obtain ⟨hl, hx⟩ := List.getElem?_eq_some_iff.mp (table_of_entryAt he)
  refine ⟨hl, by simp [hx, hk], ?_⟩
  intro j hj
  cases hy : s.table[j] with
  | none => simp
  | some f =>
    have := hf j f hj (entryAt_of_table (by rw [List.getElem?_eq_getElem (by omega), hy]))
    simp [this]

/-- The unresolved count (R61). -/
theorem unresolvedCount_eq (l : List Int) : unresolvedCount l = l.count 0 := rfl

/-- An entry put and gated (R61). -/
theorem gate_putEntry (i : Nat) (e : Entry) (s : State) (hi : i < s.table.length) :
    gate i (putEntry i (some e) s) = gated i e s := by
  have : entryAt (putEntry i (some e) s) i = some e := by
    apply entryAt_of_table; simp [putEntry, hi]
  have hcov : e.covered = true ↔ e.accumulators.count 0 ≤ (16 * e.identity.length + 40) / 4 := decide_eq_true_iff
  simp only [gate, this, gated]
  by_cases hc : e.state = .waiting ∧ e.accumulators.count 0 ≤ (16 * e.identity.length + 40) / 4
  · rw [if_pos ⟨hc.1, hcov.2 hc.2⟩, if_pos hc]; simp [enqueue, putEntry]
  · rw [if_neg (fun h => hc ⟨h.1, hcov.1 h.2⟩), if_neg hc]; rfl

/-- The bookkeeping of a MATCH copy (R59). -/
theorem hear_eq_heardOnce (e : Entry) (h : Header) : e.hear h = heardOnce h e := by
  unfold Entry.hear heardOnce addRelayer
  have h1 : min 255 (e.heard + 1) = if e.heard < 255 then e.heard + 1 else 255 := by split <;> omega
  have h2 : max e.bestHops h.hops = if e.bestHops < h.hops then h.hops else e.bestHops := by split <;> omega
  rw [h1, h2]
  congr 1
  by_cases h3 : h.relayer ∈ e.relayers
  · rw [if_pos (Or.inl (by simpa using h3)), if_neg (fun h => h.1 h3)]
  · by_cases h4 : e.relayers.length < 4
    · rw [if_neg, if_pos ⟨h3, h4⟩]
      rintro (h5 | h5)
      · exact h3 (by simpa using h5)
      · exact absurd h5 (Nat.not_le.2 h4)
    · rw [if_pos (Or.inr (Nat.le_of_not_lt h4)), if_neg (fun h => h4 h.2)]

/-- The merge of a MATCH copy (R60). -/
theorem merge_eq_mergedWith (e : Entry) (c : List Int) : e.merge c = mergedWith c e := by
  unfold Entry.merge mergedWith mergeConfidences
  have h1 : addSaturated = fun a c => withinSixtyThree (a + c) := by
    funext a c; unfold addSaturated withinSixtyThree; split
    · omega
    · split <;> omega
  rw [h1]
  congr 1
  cases e.state <;> cases e.recheck <;> rfl

/-- The lowest FREE entry is the first that is FREE (R56). -/
theorem freeEntry_eq (t : List (Option Entry)) (i : Nat) (h : t[i]? = some none) (hf : ∀ j, j < i → t[j]? ≠ some none) :
    freeEntry t = i := by
  unfold freeEntry
  obtain ⟨hl, hx⟩ := List.getElem?_eq_some_iff.mp h
  have : t.findIdx? Option.isNone = some i := by
    rw [List.findIdx?_eq_some_iff_getElem]
    refine ⟨hl, by simp [hx], ?_⟩
    intro j hj
    have := hf j hj
    rw [List.getElem?_eq_getElem (by omega)] at this
    cases hy : t[j] with
    | none => exact absurd (by rw [hy]) this
    | some f => simp
  rw [this]; rfl

/-- A list that is not empty has a first. -/
theorem firstBy_of_ne_nil {α : Type} (b : α → α → Bool) : ∀ (l : List α), l ≠ [] → ∃ a, firstBy b l = some a
  | [], h => absurd rfl h
  | a :: l, _ => by
    simp only [firstBy]
    split
    · exact ⟨_, rfl⟩
    · split <;> exact ⟨_, rfl⟩

/-- The first of a list is in it. -/
theorem firstBy_mem {α : Type} (b : α → α → Bool) : ∀ (l : List α) (a : α), firstBy b l = some a → a ∈ l
  | [], _, h => by simp [firstBy] at h
  | x :: l, a, h => by
    simp only [firstBy] at h
    split at h
    · simp at h; simp [h]
    · next y hy =>
      split at h
      · simp at h; subst h; simp [firstBy_mem b l _ hy]
      · simp at h; simp [h]

-- first of a list sorted by index under rank order

/-- No candidate for eviction is before the first. -/
theorem firstBy_rank_le (b : Evictable → Evictable → Bool) (hb : ∀ x y, b x y = decide (x.rank < y.rank)) :
    ∀ (l : List Evictable) (a : Evictable),
   l.Pairwise (fun x y => x.index < y.index) → firstBy b l = some a →
    ∀ x ∈ l, a.rank < x.rank ∨ (a.rank = x.rank ∧ a.index ≤ x.index)
  | [], _, _, h => by simp [firstBy] at h
  | y :: l, a, hp, h => by
    simp only [firstBy] at h
    have hp' := List.pairwise_cons.mp hp
    split at h
    · next hn =>
      simp at h; subst h
      intro x hx
      cases l with
      | nil => simp at hx; subst hx; right; exact ⟨rfl, le_refl _⟩
      | cons z l => obtain ⟨w, hw⟩ := firstBy_of_ne_nil b (z :: l) (by simp); rw [hw] at hn; cases hn
    · next z hz =>
      have ih := firstBy_rank_le b hb l z hp'.2 hz
      have hzm := firstBy_mem b l z hz
      rw [hb] at h
      split at h
      · next hlt =>
        simp at h hlt; subst h
        intro x hx
        rcases List.mem_cons.mp hx with rfl | hx
        · left; exact hlt
        · exact ih x hx
      · next hge =>
        simp at h hge; subst h
        intro x hx
        rcases List.mem_cons.mp hx with rfl | hx
        · right; exact ⟨rfl, le_refl _⟩
        · rcases ih x hx with h1 | ⟨h1, h2⟩
          · left; omega
          · have := hp'.1 x hx
            rcases lt_or_eq_of_le hge with h3 | h3
            · left; omega
            · right; omega

/-- The entry evicted is that of the earliest deadline (R57). -/
theorem evictee_is_earliest (s : State) (hc : ∃ i f, entryAt s i = some f ∧ f.state ≠ .decoding) :
   ∃ v f, evictee s = some v ∧ entryAt s v = some f ∧ f.state ≠ .decoding
        ∧ (∀ j g, entryAt s j = some g → g.state ≠ .decoding →
          deadlineRank s.station.milliTimer f.deadline < deadlineRank s.station.milliTimer g.deadline
          ∨ deadlineRank s.station.milliTimer f.deadline = deadlineRank s.station.milliTimer g.deadline ∧ v ≤ j) := by
  have hmem : ∀ x, x ∈ (s.table.mapIdx (evictable s.station.milliTimer)).filterMap id ↔
      ∃ f, entryAt s x.index = some f ∧ f.state ≠ .decoding
        ∧ x.rank = deadlineRank s.station.milliTimer f.deadline := by
    intro x
    simp only [List.mem_filterMap, List.mem_mapIdx, id]
    constructor
    · rintro ⟨y, ⟨i, hi, hy⟩, rfl⟩
      unfold evictable at hy
      split at hy
      · next e he =>
        split at hy
        · cases hy
        · next hd =>
          simp at hy; subst hy
          exact ⟨e, entryAt_of_table (by rw [List.getElem?_eq_getElem hi, he]), hd, rfl⟩
      · cases hy
    · rintro ⟨f, hf, hd, hr⟩
      obtain ⟨hl, hx⟩ := List.getElem?_eq_some_iff.mp (table_of_entryAt hf)
      refine ⟨_, ⟨x.index, hl, rfl⟩, ?_⟩
      simp [evictable, hx, hd, ← hr]
  have hpw : ((s.table.mapIdx (evictable s.station.milliTimer)).filterMap id).Pairwise
      (fun x y => x.index < y.index) := by
    rw [List.pairwise_filterMap]
    rw [List.pairwise_iff_getElem]
    intro i j hi hj hij x hx y hy
    simp at hi hj
    have hidx : ∀ k (hk : k < s.table.length) z,
        (s.table.mapIdx (evictable s.station.milliTimer))[k]'(by simpa using hk) = some z → z.index = k := by
      intro k hk z hz
      simp [evictable] at hz
      split at hz
      · split at hz
        · cases hz
        · simp at hz; rw [← hz]
      · cases hz
    rw [hidx i hi x hx, hidx j hj y hy]; exact hij
  obtain ⟨i, f, hf, hd⟩ := hc
  have hne : (s.table.mapIdx (evictable s.station.milliTimer)).filterMap id ≠ [] := by
    intro h
    have := (hmem ⟨_, i⟩).mpr ⟨f, hf, hd, rfl⟩
    rw [h] at this; cases this
  obtain ⟨a, ha⟩ := firstBy_of_ne_nil (fun a b : Evictable => decide (a.rank < b.rank)) _ hne
  obtain ⟨g, hg, hgd, hgr⟩ := (hmem a).mp (firstBy_mem _ _ _ ha)
  refine ⟨a.index, g, by rw [evictee, ha]; rfl, hg, hgd, ?_⟩
  intro j k hk hkd
  have := firstBy_rank_le _ (by intro x y; rfl) _ a hpw ha ⟨_, j⟩
    ((hmem ⟨deadlineRank s.station.milliTimer k.deadline, j⟩).mpr ⟨k, hk, hkd, rfl⟩)
  rw [hgr] at this
  exact this

/-! ## The host port -/

/-- A port in REQUEST sends 00h (R172). -/
theorem outByte_request (p : Port) (h : p.phase = .request) : p.outByte = 0 := by simp [Port.outByte, h]

/-- A request completed is taken (R173). -/
theorem hostRequest_of_completes (r : Request) (s : State) (h : Completes r s) :
    hostRequest r s = takeRequest r (received r.bytes s) := by
  obtain ⟨h1, h2, h3, rest, h4, h5⟩ := h
  unfold hostRequest
  rw [if_pos]
  · simp [setPort, received, Port.byteEnd, outByte_request _ h1]
  · refine ⟨h1, h2, h3, ?_, ?_⟩
    · rw [List.isPrefixOf_iff_prefix]; exact ⟨rest, h5.symm⟩
    · rw [h5]; have := List.length_pos_iff.mpr h4; simp; omega

/-- The check of a CONFIGURE (R161). -/
theorem configureValid_iff (p : ConfigureParams) : configureValid p = true ↔ ConfigInRange p := by
  have hv : ∀ b : Byte, validId b = true ↔ (1 ≤ b.toNat ∧ b.toNat ≤ 254) := by
    intro b; simp only [validId, Bool.and_eq_true, bne_iff_ne, ne_eq, BitVec.toNat_eq]; have := b.isLt; simp; omega
  simp only [configureValid, Bool.and_eq_true, decide_eq_true_iff, List.all_eq_true, hv, bne_iff_ne, ne_eq]
  simp only [ConfigInRange, configureGroups, ne_eq, and_assoc]

/-- The check of a SUBMIT (R146). -/
theorem submitValid_iff (p : SubmitParams) (own : Byte) : submitValid p own = true ↔ SubmitInRange p own := by
  have hv : ∀ b : Byte, validId b = true ↔ (1 ≤ b.toNat ∧ b.toNat ≤ 254) := by
    intro b; simp only [validId, Bool.and_eq_true, bne_iff_ne, ne_eq, BitVec.toNat_eq]; have := b.isLt; simp; omega
  unfold submitValid SubmitInRange submitKind
  by_cases h0 : p.kind = 0
  · simp [h0, hv]; tauto
  · by_cases h1 : p.kind = 1
    · simp [h1, hv]; tauto
    · by_cases h2 : p.kind = 2
      · simp [h2]; tauto
      · simp only [if_neg h0, if_neg h1, if_neg h2]
        simp only [Bool.false_and, Bool.false_eq_true, false_iff, not_and]
        rintro (h | h | h)
        · exact absurd h.1 h0
        · exact absurd h.1 h1
        · exact absurd h h2

/-- A mask names only the four flags (R175). -/
theorem mask_within_four (m : Byte) : m.extractLsb' 4 4 = 0#4 ↔ m.toNat < 16 := by
  rw [BitVec.toNat_eq]; simp [Nat.shiftRight_eq_div_pow]; have := m.isLt; omega

/-- A 16-bit number, low byte first. -/
theorem wordBytes_ofNat (v : Nat) : wordBytes (BitVec.ofNat 16 v) = lowFirst v := by
  simp only [wordBytes, lowFirst, List.cons.injEq, and_true]
  constructor <;> (apply BitVec.eq_of_toNat_eq; simp <;> omega)

/-- A sequence number, low byte first. -/
theorem sequenceBytes_eq (v : Sequence) : sequenceBytes v = lowFirst v.toNat := by
  have := v.isLt
  simp only [sequenceBytes, lowFirst, List.cons.injEq, and_true]
  constructor <;> (apply BitVec.eq_of_toNat_eq; simp <;> omega)

/-- A counter, low byte first. -/
theorem wordBytes_eq (v : BitVec 16) : wordBytes v = lowFirst v.toNat := by rw [← wordBytes_ofNat]; simp

/-- The READ_COUNTERS body (R182). -/
theorem countersRecord_eq (c : Counters) : countersRecord c = countersBody c := by
  simp only [countersRecord, countersBody, Counter.inOrder, List.flatMap_cons, List.flatMap_nil,
    Counters.get, wordBytes_eq]

/-- The first four places of a list, 00h beyond its end. -/
theorem take_four (l : List Byte) :
    (l ++ List.replicate 4 0).take 4 = [l.getD 0 0, l.getD 1 0, l.getD 2 0, l.getD 3 0] := by
  rcases l with _ | ⟨a, _ | ⟨b, _ | ⟨c, _ | ⟨d, l⟩⟩⟩⟩ <;> simp [List.replicate]

/-- The COLLECT_MESSAGE body (R182). -/
theorem messageRecord_eq (m : Message) (p : List Byte) : messageRecord m p = messageBody m p := by
  simp only [messageRecord, messageBody, sequenceBytes_eq, wordBytes_ofNat, take_four, byteOf]
  cases m.identity.kind <;> simp [DestKind.code]

/-- The status record (R182). -/
theorem statusRecord_eq (s : State) : statusRecord s = statusBody s := by
  simp only [statusRecord, statusBody, sequenceBytes_eq, byteOf, slotsInUse, Slot.isFree]
  have h : s.slots.countP (fun sl => sl.byInbox || sl.byRelay || sl.byOrigin || sl.byDecoder)
      = s.slots.countP (fun sl => !(!sl.byInbox && !sl.byRelay && !sl.byOrigin && !sl.byDecoder)) := by
    congr 1; funext sl; simp
  rw [h]
  rcases s.flags with ⟨a,b,c,d⟩
  cases s.station.state <;> cases s.line.medium <;> cases s.transmit.controller <;> cases s.decoder <;>
    cases a <;> cases b <;> cases c <;> cases d <;> rfl

end Sys2Proof.Machine
end

