-- ==== Sys2Proof/Laws/Agenda.lean ====
section
/-! SUPPORT. When each event is due, block by block, in the statements' terms. -/

namespace Sys2Proof.Machine

/-- A deadline is to come exactly when it has not been reached (R163, log 17). -/
theorem toCome_iff_not_reached (now d : Millis) : toCome now d = true ↔ ¬ Reached now d := by
  unfold toCome Reached
  rw [Bool.and_eq_true, decide_eq_true_eq, decide_eq_true_eq, not_or]
  unfold distanceAhead Config.longestDelay
  constructor <;> (rintro ⟨a, b⟩; constructor <;> omega)

theorem deadlineReached_iff (s : State) (d : Millis) :
    deadlineReached s d = true ↔ Reached s.station.milliTimer d := by
  have := toCome_iff_not_reached s.station.milliTimer d
  simp only [deadlineReached, Bool.not_eq_true', Bool.eq_false_iff]
  simp [this]

theorem mem_onlyIf (b : Bool) (i c : Instr) : c ∈ onlyIf b i ↔ b = true ∧ c = i := by
  cases b <;> simp [onlyIf]

theorem mem_mapIdx_flatten {α : Type} (f : Nat → α → List Instr) (l : List α) (c : Instr) :
    c ∈ (l.mapIdx f).flatten ↔ ∃ i a, l[i]? = some a ∧ c ∈ f i a := by
  simp only [List.mem_flatten, List.mem_mapIdx]
  constructor
  · rintro ⟨x, ⟨i, h, rfl⟩, hc⟩
    exact ⟨i, l[i], by simp [h], hc⟩
  · rintro ⟨i, a, h, hc⟩
    obtain ⟨h1, rfl⟩ := List.getElem?_eq_some_iff.1 h
    exact ⟨_, ⟨i, h1, rfl⟩, hc⟩

/-- The candidates of the arbiter are the READY items (R127). -/
theorem mem_candidates (s : State) (g : Granted) :
    (∃ c ∈ candidates s, c.item = g) ↔ isReady s g := by
  simp only [candidates, List.mem_append, List.mem_filterMap, List.mem_mapIdx, id]
  constructor
  · rintro ⟨c, ⟨x, ⟨i, hi, hx⟩, rfl⟩ | ⟨x, ⟨i, hi, hx⟩, rfl⟩, rfl⟩
    · unfold originCandidate at hx
      split at hx
      · next t ht => cases hx; exact ⟨_, t, List.getElem?_eq_getElem hi, ht⟩
      · cases hx
    · unfold relayCandidate at hx
      split at hx
      · next item hit =>
        split at hx
        · next t ht => cases hx; exact ⟨item, t, relayAt_of_relays (by rw [List.getElem?_eq_getElem hi, hit]), ht⟩
        · cases hx
      · cases hx
  · intro h
    rcases g with i | i
    · obtain ⟨r, t, hr, ht⟩ := h
      obtain ⟨hi, hg⟩ := List.getElem?_eq_some_iff.1 (relays_of_relayAt hr)
      exact ⟨_, .inr ⟨_, ⟨i, hi, by simp only [relayCandidate, hg, ht]; rfl⟩, rfl⟩, rfl⟩
    · obtain ⟨o, t, ho, ht⟩ := h
      obtain ⟨hi, hg⟩ := List.getElem?_eq_some_iff.1 ho
      exact ⟨_, .inl ⟨_, ⟨i, hi, by simp only [originCandidate, hg, ht]; rfl⟩, rfl⟩, rfl⟩

/-- What the arbiter grants is READY (R128). -/
theorem isReady_of_arbitrate (s : State) (g : Granted) (h : arbitrate s = some g) : isReady s g := by
  rw [← mem_candidates]
  unfold arbitrate at h
  rw [Option.map_eq_some_iff] at h
  obtain ⟨c, hc, hg⟩ := h
  exact ⟨c, firstBy_mem _ _ _ hc, hg⟩

/-- The arbiter grants something exactly when an item is READY (R127). -/
theorem arbitrate_isSome_iff (s : State) : (arbitrate s).isSome = true ↔ ∃ g, isReady s g := by
  constructor
  · intro h
    obtain ⟨g, hg⟩ := Option.isSome_iff_exists.1 h
    exact ⟨g, isReady_of_arbitrate s g hg⟩
  · rintro ⟨g, hg⟩
    obtain ⟨c, hc, -⟩ := (mem_candidates s g).2 hg
    obtain ⟨a, ha⟩ := firstBy_of_ne_nil Candidate.before (candidates s) (List.ne_nil_of_mem hc)
    simp [arbitrate, ha]

/-! ## Membership, block by block -/

theorem mem_dueByte (c : Instr) (s : State) : c ∈ dueByte s ↔ ∃ b, s.port.byteDone = some b ∧ c = .byteComplete b := by
  unfold dueByte; cases s.port.byteDone <;> simp

theorem mem_dueBlinding (c : Instr) (s : State) :
    c ∈ dueBlinding s ↔
      c = .blindingEnd ∧ s.line.phase = .blind ∧ ∃ d, s.line.blindingDeadline = some d ∧ d ≤ s.line.tick := by
  unfold dueBlinding
  cases s.line.phase <;> cases s.line.blindingDeadline <;> simp [mem_onlyIf, and_comm]

theorem mem_dueTransmit (c : Instr) (s : State) :
    c ∈ dueTransmit s ↔
      (c = .grant ∧ s.transmit.controller = .idle ∧ ∃ g, isReady s g)
      ∨ (c = .backoffCompletion ∧ s.transmit.view = .idle ∧ ∃ g t, s.transmit.controller = .backoff g 0 t)
      ∨ (c = .slotEnd ∧ s.transmit.view = .idle
        ∧ ∃ g n t, s.transmit.controller = .backoff g (n + 1) t ∧ 64 ≤ t)
      ∨ (c = .handOver ∧ ∃ g h b, s.transmit.controller = .sending g h b .pending)
      ∨ (c = .transmissionComplete
        ∧ ∃ g h b t, s.transmit.controller = .sending g h b (.accepted .finished t)) := by
  unfold dueTransmit
  rcases s.transmit.controller with _ | ⟨g, n, t⟩ | ⟨g, h, b, _ | ⟨e, t⟩⟩
  · simp [mem_onlyIf, arbitrate_isSome_iff, and_comm]
  · rcases n with _ | n
    · simp [mem_onlyIf, and_comm]
    · simp [mem_onlyIf, and_comm, and_assoc]
  · simp
  · simp [mem_onlyIf, and_comm]

theorem mem_dueDecoder (c : Instr) (s : State) :
    c ∈ dueDecoder s ↔
      (c = .decoderTake ∧ s.decoder = none ∧ s.decodeQueue ≠ [])
      ∨ (c = .decodeCompletion ∧ ∃ d, s.decoder = some d ∧ d.completion ≤ s.refclk) := by
  unfold dueDecoder
  cases s.decoder <;> simp [mem_onlyIf, and_comm]

theorem mem_dueEntries (c : Instr) (s : State) :
    c ∈ (s.table.mapIdx (dueEntry s)).flatten ↔
      ∃ i e, c = .entryDeadline i ∧ entryAt s i = some e ∧ e.final = false
        ∧ Reached s.station.milliTimer e.deadline := by
  rw [mem_mapIdx_flatten]
  constructor
  · rintro ⟨i, _ | e, h, hc⟩
    · cases hc
    · simp only [dueEntry, mem_onlyIf, Bool.and_eq_true, Bool.not_eq_true', deadlineReached_iff] at hc
      exact ⟨i, e, hc.2, entryAt_of_table h, hc.1⟩
  · rintro ⟨i, e, rfl, h, h1⟩
    refine ⟨i, _, table_of_entryAt h, ?_⟩
    simp only [dueEntry, mem_onlyIf, Bool.and_eq_true, Bool.not_eq_true', deadlineReached_iff]
    exact ⟨h1, trivial⟩

theorem mem_dueRelays (c : Instr) (s : State) :
    c ∈ (s.relays.mapIdx (dueRelay s)).flatten ↔
      ∃ i r, c = .relayHoldOffExpiry i ∧ relayAt s i = some r ∧ r.state = .holding
        ∧ Reached s.station.milliTimer r.holdOffDeadline := by
  rw [mem_mapIdx_flatten]
  constructor
  · rintro ⟨i, _ | r, h, hc⟩
    · cases hc
    · simp only [dueRelay, mem_onlyIf, Bool.and_eq_true, beq_iff_eq, deadlineReached_iff] at hc
      exact ⟨i, r, hc.2, relayAt_of_relays h, hc.1⟩
  · rintro ⟨i, r, rfl, h, h1⟩
    refine ⟨i, _, relays_of_relayAt h, ?_⟩
    simp only [dueRelay, mem_onlyIf, Bool.and_eq_true, beq_iff_eq, deadlineReached_iff]
    exact ⟨h1, trivial⟩

theorem mem_dueOrigins (c : Instr) (s : State) :
    c ∈ (s.outbox.mapIdx (dueOrigin s)).flatten ↔
      (∃ i o d, c = .originHoldOffExpiry i ∧ s.outbox[i]? = some o ∧ o.state = .holding d
        ∧ Reached s.station.milliTimer d)
      ∨ (∃ i o d, c = .echoDeadline i ∧ s.outbox[i]? = some o ∧ o.state = .echoWait d
        ∧ Reached s.station.milliTimer d) := by
  rw [mem_mapIdx_flatten]
  constructor
  · rintro ⟨i, o, h, hc⟩
    unfold dueOrigin at hc
    split at hc
    · rw [mem_onlyIf, deadlineReached_iff] at hc
      exact .inl ⟨i, o, _, hc.2, h, ‹_›, hc.1⟩
    · rw [mem_onlyIf, deadlineReached_iff] at hc
      exact .inr ⟨i, o, _, hc.2, h, ‹_›, hc.1⟩
    · cases hc
  · rintro (⟨i, o, d, rfl, h, h1, h2⟩ | ⟨i, o, d, rfl, h, h1, h2⟩) <;>
      exact ⟨i, o, h, by simp only [dueOrigin, h1, mem_onlyIf, deadlineReached_iff]; exact ⟨h2, trivial⟩⟩

theorem mem_dueListen (c : Instr) (s : State) :
    c ∈ dueListen s ↔
      c = .listenExpiry ∧ s.station.state = .listening
        ∧ ∃ d, s.station.listenDeadline = some d ∧ Reached s.station.milliTimer d := by
  unfold dueListen
  cases s.station.state <;> cases s.station.listenDeadline <;> simp [mem_onlyIf, deadlineReached_iff, and_comm]

end Sys2Proof.Machine
end

