-- ==== Sys2Proof/Laws/Stream.lean ====
section
/-! SUPPORT. The element stream of a copy: its parts as the statements say them, and how the stream moves. -/

namespace Sys2Proof.Machine

theorem markTicks_eq (c : TxCopy) (e : Element) : c.markTicks e = (elementParts c e).1 := by
  cases e <;>
    simp [TxCopy.markTicks, elementParts, TxCopy.headerValue, symbolMark, headerBit, Config.headerBits]

theorem elementTicks_eq (c : TxCopy) (e : Element) :
    c.elementTicks e = (elementParts c e).1 + (elementParts c e).2 := by
  rw [TxCopy.elementTicks, markTicks_eq]
  cases e <;> rfl

theorem elementTicks_pos (c : TxCopy) (e : Element) (h : e ≠ .finished) : 0 < c.elementTicks e := by
  cases e <;> simp [TxCopy.elementTicks, TxCopy.markTicks, spaceTicks] at *

theorem nextElement_eq_elementAfter (c : TxCopy) (e : Element) : c.nextElement e = elementAfter c e := by
  cases e with
  | headerSymbol h =>
    simp only [TxCopy.nextElement, elementAfter, Config.headerSymbols]
    split <;> split <;> first | rfl | omega
  | bodySymbol j =>
    by_cases hj : j < 16 * c.payload.length + 39
    · exact (if_pos (show j + 1 < codedLength c.payload.length by unfold codedLength; omega)).trans (if_pos hj).symm
    · exact (if_neg (show ¬ j + 1 < codedLength c.payload.length by unfold codedLength; omega)).trans
        (if_neg hj).symm
  | _ => rfl

/-- Elements from one on to the end of the stream, the end counted. -/
def elementsLeft (c : TxCopy) : Element → Nat
  | .startMarker => 16 * c.payload.length + 235
  | .headerSymbol h => (191 - h) + 16 * c.payload.length + 43
  | .bodySymbol j => (16 * c.payload.length + 39 - j) + 3
  | .endMarker => 2
  | .finished => 1

theorem elementsLeft_pos (c : TxCopy) (e : Element) : 0 < elementsLeft c e := by cases e <;> simp [elementsLeft]

theorem elementsLeft_next (c : TxCopy) (e : Element) (h : e ≠ .finished) :
    elementsLeft c (c.nextElement e) + 1 ≤ elementsLeft c e := by
  cases e with
  | headerSymbol k =>
    simp only [TxCopy.nextElement, Config.headerSymbols]
    split <;> simp only [elementsLeft] <;> omega
  | bodySymbol j =>
    simp only [TxCopy.nextElement]
    by_cases hj : j + 1 < codedLength c.payload.length
    · rw [if_pos hj]; simp only [elementsLeft, codedLength] at *; omega
    · rw [if_neg hj]; simp only [elementsLeft, codedLength] at *; omega
  | finished => exact absurd rfl h
  | _ => simp only [TxCopy.nextElement, elementsLeft]; omega

/-- The bound is enough from every element. -/
theorem elementsLeft_le_bound (c : TxCopy) (e : Element) : elementsLeft c e ≤ c.elementBound := by
  cases e <;> simp only [elementsLeft, TxCopy.elementBound] <;> omega

/-- Any two bounds that are enough give the same position. -/
theorem run_of_enough (c : TxCopy) : ∀ n m e t k, elementsLeft c e ≤ n → elementsLeft c e ≤ m →
    c.run n e t k = c.run m e t k
  | 0, _, e, _, _, h, _ => absurd (elementsLeft_pos c e) (by omega)
  | _ + 1, 0, e, _, _, _, h => absurd (elementsLeft_pos c e) (by omega)
  | n + 1, m + 1, e, t, k, h1, h2 => by
    simp only [TxCopy.run]
    split
    · rfl
    · rename_i hf
      split
      · rfl
      · have := elementsLeft_next c e hf
        exact run_of_enough c n m _ _ _ (by omega) (by omega)

/-- `k + l` ticks are `k` ticks and then `l` (R28). -/
theorem run_add (c : TxCopy) : ∀ n e t k l, elementsLeft c e ≤ n →
    c.run n e t (k + l) = c.run c.elementBound (c.run n e t k).1 (c.run n e t k).2 l
  | 0, e, _, _, _, h => absurd (elementsLeft_pos c e) (by omega)
  | n + 1, e, t, k, l, h => by
    obtain ⟨b, hb⟩ : ∃ b, c.elementBound = b + 1 := ⟨_, rfl⟩
    by_cases hf : e = .finished
    · subst hf; simp [TxCopy.run, hb]
    · by_cases hk : t + k < c.elementTicks e
      · have : c.run (n + 1) e t k = (e, t + k) := by simp [TxCopy.run, hf, hk]
        rw [this, run_of_enough c (n + 1) c.elementBound e t (k + l) h (elementsLeft_le_bound c e), hb]
        simp only [TxCopy.run, hf, if_false, Nat.add_assoc]
      · have h1 : c.run (n + 1) e t k = c.run n (c.nextElement e) 0 (t + k - c.elementTicks e) := by
          simp [TxCopy.run, hf, hk]
        have h2 : c.run (n + 1) e t (k + l) = c.run n (c.nextElement e) 0 ((t + k - c.elementTicks e) + l) := by
          simp only [TxCopy.run, hf, if_false]
          rw [if_neg (by omega)]
          congr 1
          omega
        rw [h1, h2]
        have := elementsLeft_next c e hf
        exact run_add c n _ _ _ _ (by omega)

end Sys2Proof.Machine
end

