-- ==== Sys2Proof/WellFormed.lean ====
section
/-! DEFINITION. Which commands are well formed: their operands name things the part has, and a request is one the host
port can frame. -/

namespace Sys2Proof

open Sys2Proof.Machine

/-- A command is well formed when its index is one its store has (R54, R109, R144), a SUBMIT's parameters fit its
length byte (R173, R181), and the bytes of a MALFORMED_REQUEST are a complete malformed request (R173, R174). -/
def Instr.wf : Instr → Bool
  | .entryDeadline i => decide (i < Config.entries)
  | .relayHoldOffExpiry i => decide (i < Config.relayItems)
  | .originHoldOffExpiry i => decide (i < Config.originItems)
  | .echoDeadline i => decide (i < Config.originItems)
  | .submit p => decide (6 + p.payload.length ≤ Config.maxParameters)
  | .malformedRequest bs => requestComplete bs && parseRequest bs == .malformed bs
  | .powerOn => true
  | .rstnReset => true
  | .risingEdge => true
  | .fallingEdge _ => true
  | .silence => true
  | .blindingEnd => true
  | .slotEnd => true
  | .backoffCompletion => true
  | .handOver => true
  | .transmissionComplete => true
  | .grant => true
  | .decoderTake => true
  | .decodeCompletion => true
  | .listenExpiry => true
  | .csnFall => true
  | .csnRise => true
  | .configure _ => true
  | .collectMessage => true
  | .collectReport => true
  | .readStatus => true
  | .readCounters _ => true
  | .clearEvents _ => true
  | .restart => true
  | .collectMessageFinalByte => true
  | .collectReportFinalByte => true
  | .readCountersFinalByte => true
  | .rstnRelease => true
  | .byteComplete _ => true

end Sys2Proof
end

