-- ==== Sys2Proof/Tests/Slice0.lean ====
section
/-! SUPPORT. Tests: ill-formed commands, the manual's own examples and check values, one small step for each command,
and for each statement with hypotheses a state and operands that meet them all (`witness_…`). -/

namespace Sys2Proof.Tests

open Sys2Proof.Machine

set_option maxRecDepth 20000

/-! ## Small states -/

/-- Station 10, groups 3 and 4, unit code 1, relaying on, C = 3, W = 40, default hops 4, window 200 ms, D = 8. -/
def cfg : ConfigRecord := ⟨10, [3, 4], 1, true, 3, 40, 4, 20, 8⟩

/-- A configured station RUNNING under session 5 on an IDLE line, nothing stored and nothing due. -/
def quiet : State :=
  { State.reset with
    station := ⟨.running, some cfg, 5, 12, none, 1000, 0, false⟩
    line :=
      { Line.reset with phase := .dark, medium := .idle, silenceRaised := true, spaceTimer := 96, tick := 200 }
    transmit := ⟨.idle, .idle⟩ }

/-- A part right after a reset, with a session tag of 5. -/
def fresh : State := { State.reset with station := Station.reset 5 false }

/-- A part that RSTn holds in reset. -/
def heldPart : State := { fresh with station := Station.reset 5 true, pins := { Pins.atReset with rstn := false } }

/-- The state after a command. -/
def after : Host.Outcome State Fault Refusal → State
  | .next s => s
  | .fault r => nomatch r
  | .refused _ => State.reset

def key : Key := ⟨20, 1, 100⟩
def ident : Identity := ⟨3, .group, false, 1⟩
def head : Header := ⟨key, ident, 33, 5⟩

/-- A record of a copy of length 1, every position +7. -/
def copy : CopyRecord := ⟨head, List.replicate 56 7⟩

/-- The coded body of the payload [41h] under the identity of `head`, and a snapshot that agrees with it. -/
def code : List Bool := encodeBits (informationBits [0x41] (bodyCheck (identityBlock key ident) [0x41]))
def snapshot : List Int := code.map fun b => if b then 7 else -7

def entry : Entry := ⟨.waiting, false, false, key, ident, List.replicate 56 7, 1, 1, [33], 5, 1200⟩
def decode : Decode := ⟨0, snapshot, 1, identityBlock key ident, 0, 0, 448⟩
def relayItem (st : RelayState) (heard deferrals : Nat) : RelayItem :=
  ⟨key, ident, 4, 0, st, 1020, heard, deferrals⟩
def originItem (st : OriginState) (requested sent ended deferrals : Nat) : OriginItem :=
  ⟨7, ⟨10, 5, 11⟩, ident, 4, 0, requested, sent, ended, 0, st, deferrals⟩

/-- A station with one entry, with one relay item, with one origin item. -/
def withEntry (e : Entry) : State := { quiet with table := some e :: List.replicate 7 none }
def withRelay (r : RelayItem) (c : Controller) (m : Medium) : State :=
  { quiet with
    relays := some r :: List.replicate 14 none
    line := { quiet.line with medium := m }
    transmit := ⟨c, m⟩ }
def withOrigin (o : OriginItem) (c : Controller) (m : Medium) : State :=
  { quiet with outbox := [o], line := { quiet.line with medium := m }, transmit := ⟨c, m⟩ }

/-- A station in the middle of a mark, with its Copy Assembler as given. -/
def lit (a : Assembler) : State :=
  { quiet with
    line := { quiet.line with phase := .lit, medium := .busy, markStamp := 197, markTimer := 4, silenceRaised := false }
    transmit := ⟨.idle, .busy⟩
    assembler := a }

/-- A station in a space that has not yet raised silence, with its Copy Assembler as given. -/
def dark (a : Assembler) : State :=
  { quiet with
    line := { quiet.line with medium := .busy, spaceTimer := 3, silenceRaised := false }
    transmit := ⟨.idle, .busy⟩
    assembler := a }

/-- A relay item whose backoff of 0 slots waits for the silence that ends a DUPLICATE of its key (R118). -/
def racing (heard : Nat) : State :=
  { dark { emptyCopy with phase := .body, headerIndex := 192, decided := some head } with
    history := [key]
    relays := some (relayItem (.contending 990) heard 0) :: List.replicate 14 none
    transmit := ⟨.backoff (.relay 0) 0 0, .busy⟩ }

def tail : Assembler := { Assembler.reset with phase := .tail }
def inHeader (index run : Nat) : Assembler := { emptyCopy with headerIndex := index, erasureRun := run }
def inBody (index run : Nat) : Assembler :=
  { emptyCopy with phase := .body, headerIndex := 192, decided := some head, bodyIndex := index, erasureRun := run }

/-- The header sums of a clean copy of `head` before its last symbol. -/
def cleanSums : Assembler :=
  { inHeader 191 0 with headerSums := (List.range 64).map fun i => if headerBit (headerBytes head) i then 14 else -14 }

/-- A configured, or an unconfigured, station with an open transaction in which nothing has been sent yet. -/
def openPort : Port := { Port.reset Pins.atReset with phase := .request, csnSeen := false, miso := some false }
def asked (s : State) : State := { s with port := openPort, pins := { s.pins with csn := false } }

/-- A transaction whose response is to be clocked out. -/
def responding (s : State) (r : Response) : State :=
  { asked s with port := { openPort with phase := .response, response := some r } }

def message : Message := ⟨key, ident, 5, 1, 1, [33], 0, 0⟩
def report : Report := ⟨7, 11, 3, 3, 1, .echoed⟩
def params : ConfigureParams := ⟨10, 2, 3, 4, 0, 0, 1, 1, 3, 40, 4, 20, 8⟩
/-- The SUBMIT of the manual's example (12_formats.md). -/
def submission : SubmitParams := ⟨7, 2, 0, 0, 3, 0, [1, 2, 3, 4]⟩

/-! ## Ill-formed commands -/

theorem test_wf_refuses_entry_8 : (Instr.entryDeadline 8).wf = false := by decide
theorem test_wf_refuses_relay_15 : (Instr.relayHoldOffExpiry 15).wf = false := by decide
theorem test_wf_refuses_origin_4 : (Instr.originHoldOffExpiry 4).wf = false := by decide
theorem test_wf_refuses_echo_4 : (Instr.echoDeadline 4).wf = false := by decide
theorem test_wf_refuses_long_submit :
    (Instr.submit { submission with payload := List.replicate 53 0 }).wf = false := by decide
theorem test_wf_refuses_good_request_as_malformed : (Instr.malformedRequest [0x31, 0]).wf = false := by decide
theorem test_wf_refuses_incomplete_malformed : (Instr.malformedRequest [0x99, 2, 0]).wf = false := by decide
theorem test_wf_accepts_malformed : (Instr.malformedRequest [0x31, 1, 0]).wf = true := by decide

/-! ## The manual's examples and check values -/

/-- The nine bytes of the check values of 01_messages_copies_and_codes.md. -/
def nine : List Byte := [0x31, 0x32, 0x33, 0x34, 0x35, 0x36, 0x37, 0x38, 0x39]

theorem test_header_check_value : crc8 nine = 0xF4 := by decide
theorem test_body_check_value : crc16 nine = 0x29B1 := by decide

/-- The encoding example of R11. -/
theorem test_encoding_example :
    encodeBits [true, true, false, true] = [true, true, false, true, true, true, true, true] := by decide

/-- The table after R12. -/
theorem test_interleaving_table :
    [0, 1, 6, 7, 8, 55].map (codedPosition (roundLength 1)) = [0, 8, 48, 1, 9, 55]
      ∧ [0, 1, 24, 25, 26, 199].map (codedPosition (roundLength 10)) = [0, 8, 192, 1, 9, 199]
      ∧ [0, 100, 101, 807].map (codedPosition (roundLength 48)) = [0, 800, 1, 807] := by decide

/-- The relayed header of 12_formats.md, and its identity block. -/
theorem test_header_example :
    (headerBytes ⟨⟨10, 5, 77⟩, ⟨0, .all, false, 4⟩, 20, 2⟩).take 7 = [0x0A, 0x00, 0x14, 0x4D, 0x50, 0x84, 0x32]
      ∧ identityBlock ⟨10, 5, 77⟩ ⟨0, .all, false, 4⟩ = [0x0A, 0x00, 0x4D, 0x50, 0x84, 0x30]
      ∧ (List.range 8).map (headerBit [0x0A]) = [false, true, false, true, false, false, false, false] := by decide

/-- A header of an unknown version, of length 0, of length 49 is not accepted (R7). -/
theorem test_header_refusals :
    acceptHeader [10, 0, 20, 0, 0, 0x84, 0x22, crc8 [10, 0, 20, 0, 0, 0x84, 0x22]] = none
      ∧ acceptHeader [10, 0, 20, 0, 0, 0x80, 0x32, crc8 [10, 0, 20, 0, 0, 0x80, 0x32]] = none
      ∧ acceptHeader [10, 0, 20, 0, 0, 0xB1, 0x32, crc8 [10, 0, 20, 0, 0, 0xB1, 0x32]] = none := by decide

/-- The bounds of every class of R21 and of every soft value of R22. -/
theorem test_mark_classes :
    [0, 7, 8, 17, 18, 20, 21, 22, 23, 24, 25, 26, 27, 28, 29, 31, 32, 39].map classifyMark
      = [.erasure, .erasure, .dataSymbol 0, .dataSymbol 0, .dataSymbol 1, .dataSymbol 1, .dataSymbol 2, .dataSymbol 2,
        .dataSymbol 3, .dataSymbol 3, .dataSymbol 4, .dataSymbol 4, .dataSymbol 5, .dataSymbol 5, .dataSymbol 6,
        .dataSymbol 6, .dataSymbol 7, .dataSymbol 7]
    ∧ [40, 55, 56, 71, 72, 255].map classifyMark
      = [.endMarker, .endMarker, .startMarker, .startMarker, .erasure, .erasure] := by decide

/-- The gate of a body of length 1 passes at 14 unresolved positions and fails at 15 (R61). -/
theorem test_gate_table :
    ({ entry with accumulators := List.replicate 14 0 ++ List.replicate 42 1 }).covered = true
      ∧ ({ entry with accumulators := List.replicate 15 0 ++ List.replicate 41 1 }).covered = false := by decide

/-- The table of R113. -/
theorem test_hold_off_table :
    [1, 3, 8, 40, 255].map (fun w => ({ cfg with holdOffWindow := w }).holdOffRange true) = [1, 1, 2, 10, 63]
     
      ∧ [1, 3, 8, 40, 255].map (fun w => ({ cfg with holdOffWindow := w }).holdOffRange false) = [1, 3, 8, 40, 255] := by
  decide

/-- The four READY items of the grant order example of 08_transmit_control_and_medium_access.md. -/
def grantExample (relay2 origin0 origin1 : Bool) : State :=
  let urgent : Identity := { ident with urgent := true }
  { quiet with
    relays :=
      [some (relayItem (.ready 110) 1 0), none,
        if relay2 then some { relayItem (.ready 120) 1 0 with identity := urgent } else none]
    outbox :=
      [if origin0 then { originItem (.ready 125) 1 0 0 0 with identity := urgent } else originItem .held 1 0 0 0,
        originItem (if origin1 then .ready 110 else .held) 1 0 0 0] }

theorem test_grant_order_example :
    arbitrate (grantExample true true true) = some (.relay 2)
      ∧ arbitrate (grantExample false true true) = some (.origin 0)
      ∧ arbitrate (grantExample false false true) = some (.origin 1)
      ∧ arbitrate (grantExample false false false) = some (.relay 0) := by decide

/-- Deadlines are ordered across the wrap of the timer (R163). -/
theorem test_deadlines_across_wrap :
    deadlineAfter 0xFFFFFFFF 200 = 199 ∧ toCome 0xFFFFFFFF 199 = true ∧ toCome 199 0xFFFFFFFF = false
      ∧ deadlineRank 0 0xFFFFFFFF < deadlineRank 0 1 := by decide

/-- The decode time of the longest body (R80). -/
theorem test_decode_time :
    (newDecode 0 { entry with identity := { ident with length := 48 } } 0 0).completion = 6464 := by
  decide

/-- Two ticks lit, two dark, and dark in the space after a mark (R27, R28). -/
theorem test_carrier :
    [0, 1, 2, 3, 4, 63, 64].map ((⟨headerBytes head, [0x41], 0⟩ : TxCopy).led .startMarker)
      = [true, true, false, false, true, false, false] := by decide

/-! ## One small step for each command -/

theorem test_power_on :
    (after (exec .powerOn quiet)).station.state = .unconfigured
      ∧ (after (exec .powerOn quiet)).line.medium = .busy := by
  decide

theorem test_rstn_reset_holds : (after (exec .rstnReset quiet)).station.held = true := by decide

theorem test_rstn_release : (after (exec .rstnRelease heldPart)).station.held = false := by decide

/-- At the acceptance the mark timer already stands at 3 (R20), two ticks after the time stamp (R19). -/
theorem test_rising_edge :
    (after (exec .risingEdge quiet)).line.markTimer = 3 ∧ (after (exec .risingEdge quiet)).line.tick = 203
      ∧ (after (exec .risingEdge quiet)).transmit.view = .busy := by decide

/-- A mark of 64 ticks is a start marker, and a copy begins (R21, R37). -/
theorem test_falling_edge :
    (after (exec (.fallingEdge 64) (lit Assembler.reset))).assembler.phase = .header
      ∧ (after (exec (.fallingEdge 16) (lit (inHeader 0 5)))).assembler.headerSums.getD 0 0 = -7 := by decide

/-- The 96th tick of a space lies 93 ticks after the acceptance of its falling edge (R24). -/
theorem test_silence :
    (after (exec .silence (dark tail))).line.tick = 293 ∧ (after (exec .silence (dark tail))).line.medium = .idle
      ∧ (after (exec .silence (dark tail))).assembler.phase = .hunt := by decide

/-- A receiver in the tail of its own transmission. -/
def blind : State :=
  { quiet with
    line := { quiet.line with phase := .blind, medium := .busy, blindingDeadline := some 232 }
    transmit := ⟨.idle, .busy⟩ }

/-- The second column of R118's second row: the final check on the earlier count sends the item or removes it. -/
theorem test_check_before_duplicate :
    relayAt (takeChecks 1 (setMedium .idle (racing 2))) 0 = some (relayItem (.sending 990) 2 0)
      ∧ relayAt (assemble .silence (takeChecks 1 (setMedium .idle (racing 2)))) 0
        = some (relayItem (.sending 990) 2 0)
      ∧ relayAt (assemble .silence (takeChecks 1 (setMedium .idle (racing 3)))) 0 = none := by decide

/-- Its first column: the DUPLICATE is counted, and the final check is still to come. -/
theorem test_duplicate_before_check :
    relayAt (assemble .silence (takeChecks 0 (setMedium .idle (racing 2)))) 0 = some (relayItem (.contending 990) 3 0)
      ∧ relayAt (backoffCompletion (assemble .silence (takeChecks 0 (setMedium .idle (racing 2))))) 0 = none := by decide

/-- From the deadline a dark line gives its silence 95 ticks on (R31). -/
theorem test_blinding_end :
    (after (exec .blindingEnd blind)).line.tick = 232
      ∧ (after (exec .silence (after (exec .blindingEnd blind)))).line.tick = 232 + 95 := by decide

theorem test_slot_end :
    (after (exec .slotEnd (withRelay (relayItem (.contending 990) 1 0) (.backoff (.relay 0) 3 10) .idle))).transmit
      = ⟨.backoff (.relay 0) 2 0, .idle⟩ := by decide

/-- At C heard copies the relay is withdrawn (R117); an origin item is sent whatever its echoes (R133). -/
theorem test_backoff_completion :
    (after (exec .backoffCompletion
      (withRelay (relayItem (.contending 990) 3 0) (.backoff (.relay 0) 0 0) .idle))).counters.relaysSuppressed = 1
    ∧ ((after (exec .backoffCompletion
      (withOrigin (originItem (.contending 990) 1 0 0 0) (.backoff (.origin 0) 0 0) .idle))).outbox.map
        OriginItem.state) = [.sending 990] := by decide

/-- A relay item and an origin item whose copy is being handed over or sent. -/
def sendingRelay (x : HandOver) (m : Medium) : State :=
  withRelay (relayItem (.sending 990) 1 0) (.sending (.relay 0) (headerBytes head) 0 x) m
def sendingOrigin (x : HandOver) (m : Medium) : State :=
  withOrigin (originItem (.sending 990) 1 0 0 0) (.sending (.origin 0) (headerBytes head) 0 x) m

theorem test_hand_over :
    (after (exec .handOver (sendingRelay .pending .idle))).line.txact = true
      ∧ (after (exec .handOver (sendingRelay .pending .idle))).line.phase = .blind
      ∧ (relayAt (after (exec .handOver (sendingRelay .pending .busy))) 0).map RelayItem.deferrals = some 1 := by decide

/-- The end marker lasts 48 ticks, and the blinding deadline lies 32 ticks on (R28, R29). -/
theorem test_transmission_complete :
    let t := after (exec .transmissionComplete (sendingRelay (.accepted .endMarker 0) .busy))
    t.line.tick = 248 ∧ t.line.blindingDeadline = some 280 ∧ t.counters.relaysSent = 1
      ∧ t.transmit.controller = .idle := by
  decide

/-- A grant on a BUSY medium costs one deferral (R129). -/
theorem test_grant :
    relayAt (after (exec .grant (withRelay (relayItem (.ready 990) 1 0) .idle .busy))) 0
      = some (relayItem (.contending 990) 1 1) := by decide

/-- A station whose entry waits in the Decode Queue, and one that decodes it. -/
def queued : State := { withEntry { entry with state := .queued } with decodeQueue := [0] }
def decoding : State :=
  { withEntry { entry with state := .decoding, accumulators := snapshot } with
    decoder := some decode
    slots := ⟨[], false, false, false, true⟩ :: List.replicate 31 Slot.free }

theorem test_decoder_take :
    ((after (exec .decoderTake queued)).decoder.map Decode.completion) = some 448
      ∧ (after (exec .decoderTake queued)).decodeQueue = [] := by decide

/-- A GROUP message for this station is delivered and relayed, and its slot has two holders (R92). -/
theorem test_decode_completion :
    (after (exec .decodeCompletion decoding)).inbox = [message]
      ∧ (after (exec .decodeCompletion decoding)).slots.head? = some ⟨[0x41], true, true, false, false⟩
      ∧ (after (exec .decodeCompletion decoding)).history = [key] := by decide

theorem test_entry_deadline :
    (after (exec (.entryDeadline 0) (withEntry entry))).table = freeTable
      ∧ (after (exec (.entryDeadline 0) (withEntry entry))).station.milliTimer = 1200 := by decide

theorem test_relay_hold_off_expiry :
    relayAt (after (exec (.relayHoldOffExpiry 0) (withRelay (relayItem .holding 2 0) .idle .idle))) 0
      = some (relayItem (.ready 1020) 2 0)
    ∧ relayAt (after (exec (.relayHoldOffExpiry 0) (withRelay (relayItem .holding 3 0) .idle .idle))) 0 = none := by
  decide

theorem test_origin_hold_off_expiry :
    (after (exec (.originHoldOffExpiry 0) (withOrigin (originItem (.holding 1007) 2 1 1 0) .idle .idle))).outbox
      = [originItem (.ready 1007) 2 1 1 0] := by decide

theorem test_echo_deadline :
    (after (exec (.echoDeadline 0) (withOrigin (originItem (.echoWait 1007) 1 1 1 0) .idle .idle))).reports
      = [⟨7, 11, 1, 1, 0, .silent⟩] := by decide

/-- A station in its listen period with one item held back. -/
def listening : State :=
  { withOrigin (originItem .held 1 0 0 0) .idle .idle with
    station := { quiet.station with state := .listening, listenDeadline := some 1300 } }

theorem test_listen_expiry :
    (after (exec .listenExpiry listening)).station.state = .running
      ∧ (after (exec .listenExpiry listening)).outbox = [originItem (.ready 1300) 1 0 0 0] := by decide

theorem test_csn_edges :
    (after (exec .csnFall quiet)).port.phase = .request ∧ (after (exec .csnRise (asked quiet))).port.phase = .idle := by
  decide

/-- A station the host can read from: one message, one report. -/
def stocked : State :=
  { quiet with
    inbox := [message]
    reports := [report]
    slots := ⟨[0x41], true, false, false, false⟩ :: List.replicate 31 Slot.free
    port := { quiet.port with attn := true } }

/-- What a command has answered. -/
def answer (o : Host.Outcome State Fault Refusal) : Option (List Byte) := (after o).port.response.map Response.bytes

theorem test_configure :
    answer (exec (.configure params) (asked fresh)) = some [0, 0]
      ∧ (after (exec (.configure params) (asked fresh))).station.listenDeadline = some 400
      ∧ answer (exec (.configure { params with stationId := 3 }) (asked fresh)) = some [6, 0]
      ∧ answer (exec (.configure params) (asked quiet)) = some [4, 0] := by decide

/-- The example of 12_formats.md: sequence 12 is assigned. -/
theorem test_submit_example :
    (Request.submit submission).bytes = [0x12, 0x0A, 0x07, 0x02, 0x00, 0x00, 0x03, 0x00, 1, 2, 3, 4]
      ∧ answer (exec (.submit submission) (asked quiet)) = some [0x00, 0x02, 0x0C, 0x00] := by decide

/-- The same SUBMIT with P = 6 has a payload of length 0, and with P = 5 is malformed (12_formats.md). -/
theorem test_submit_example_short :
    answer (exec (.submit { submission with payload := [] }) (asked quiet)) = some [0x06, 0x00]
      ∧ answer (exec (.malformedRequest [0x12, 5, 7, 2, 0, 0, 3]) (asked quiet)) = some [0x05, 0x00] := by decide

theorem test_collect_message :
    answer (exec .collectMessage (asked stocked))
      = some [0, 19, 20, 1, 100, 0, 1, 3, 0, 5, 1, 1, 1, 33, 0, 0, 0, 0, 0, 1, 0x41] := by decide

theorem test_collect_report : answer (exec .collectReport (asked stocked)) = some [0, 7, 7, 11, 0, 3, 3, 1, 0] := by
  decide

/-- The record of an unconfigured station (the text after R177). -/
theorem test_read_status :
    answer (exec .readStatus (asked fresh)) = some [0, 15, 0, 5, 0, 0, 0, 0, 0, 0, 0, 0, 0, 1, 0, 0, 0] := by decide

theorem test_read_counters :
    answer (exec (.readCounters 0) (asked quiet)) = some (0 :: 34 :: List.replicate 34 0)
      ∧ answer (exec (.readCounters 2) (asked quiet)) = some [6, 0] := by decide

theorem test_clear_events :
    (after (exec (.clearEvents 0x05) (asked { quiet with flags := ⟨true, true, true, true⟩ }))).flags
      = ⟨false, true, false, true⟩ := by decide

theorem test_restart :
    (after (exec .restart (asked stocked))).station.session = 6
      ∧ (after (exec .restart (asked stocked))).station.nextSequence = 0
      ∧ (after (exec .restart (asked stocked))).inbox = [] := by decide

theorem test_malformed_request : answer (exec (.malformedRequest [0x31, 1, 0]) (asked fresh)) = some [5, 0] := by decide

theorem test_final_bytes :
    (after (exec .collectMessageFinalByte (responding stocked ⟨[0, 1, 0x41], .inboxHead, true⟩))).inbox = []
      ∧ (after (exec .collectReportFinalByte (responding stocked ⟨[0, 1, 0], .reportHead, true⟩))).reports = []
      ∧ (after (exec .readCountersFinalByte
          (responding { quiet with counters := quiet.counters.bump .echoes }
            ⟨[0, 1, 0], .clearCounters, true⟩))).counters = Counters.zero := by decide

/-- Two bytes make a READ_STATUS, and the port answers (R173). -/
theorem test_byte_complete :
    (after (exec (.byteComplete 0) (after (exec (.byteComplete 0x31) (asked quiet))))).port.phase = .response := by
  decide

/-! ## Witnesses: for each statement with hypotheses, states and operands that meet them -/

/-- The one item of a store that holds one, at index 0. -/
theorem only_first {α : Type} {a b : α} {n i : Nat} (h : (some a :: List.replicate n none).getD i none = some b) :
    i = 0 ∧ b = a := by
  rcases i with _ | k
  · exact ⟨rfl, (Option.some.inj h).symm⟩
  · rw [List.getD_eq_getElem?_getD, List.getElem?_cons_succ, List.getElem?_replicate] at h
    split at h <;> cases h

theorem entry_of_withEntry {e : Entry} {i : Nat} {f : Entry} (h : entryAt (withEntry e) i = some f) : i = 0
  ∧ f = e := only_first h

/-- An empty Relay Schedule holds no item. -/
theorem no_relay {s : State} (hs : s.relays = List.replicate 15 none) (i : Nat) : relayAt s i = none := by
  rw [relayAt, hs, List.getD_eq_getElem?_getD, List.getElem?_replicate]
  split <;> rfl

/-- One event due, several due, none due; a part held and not held, at a new tick and within one; the edge filter with
every run, in every phase. -/
theorem witness_StepWithoutCommand :
    quiet.pending = [] ∧ due quiet = [] ∧ due heldPart = []
      ∧ due { quiet with pins := { Pins.atReset with rstn := false } } = [.rstnReset]
      ∧ due { queued with pins := { Pins.atReset with csn := false } } = [.csnFall, .decoderTake]
      ∧ quiet.station.held = false ∧ heldPart.station.held = true
      ∧ (advance 1 quiet).line.tick = quiet.line.tick ∧ (advance 8 quiet).line.tick ≠ quiet.line.tick
      ∧ [0, 1, 2, 3].map (fun n => ({ quiet.line with runCount := n }).sample true)
        = [{ quiet.line with runCount := 1, runFirst := 200 }, { quiet.line with runCount := 2 },
          { quiet.line with runCount := 3 }, { quiet.line with runCount := 3 }]
      ∧ ({ quiet.line with runCount := 2 }).sample false = quiet.line
      ∧ quiet.line.phase = .dark ∧ (lit tail).line.phase = .lit ∧ fresh.line.phase = .off ∧ blind.line.phase = .blind := by
  decide

/-- Deadlines at their very millisecond, one before it, and the farthest to come. -/
theorem witness_due_moments :
    DueNow (.entryDeadline 0) (withEntry { entry with deadline := 1000 })
      ∧ ¬ DueNow (.entryDeadline 0) (withEntry { entry with deadline := 1001 })
      ∧ ¬ DueNow (.entryDeadline 0) (withEntry { entry with deadline := 6100 })
      ∧ DueNow .rstnRelease { heldPart with pins := { Pins.atReset with rstn := true } } := by
  refine ⟨⟨_, rfl, rfl, .inl rfl⟩, ?_, ?_, ⟨rfl, rfl⟩⟩ <;>
    (rintro ⟨e, he, -, h⟩
     obtain ⟨-, rfl⟩ := entry_of_withEntry he
     revert h
     unfold Reached
     decide)

theorem witness_UnmetConditionsDoNothing :
    quiet.station.held = false ∧ ¬ Enabled (.fallingEdge 16) quiet ∧ ¬ Enabled .risingEdge blind
      ∧ ¬ Enabled .silence quiet ∧ ¬ Enabled .blindingEnd quiet ∧ ¬ Enabled .slotEnd quiet
      ∧ ¬ Enabled .backoffCompletion quiet ∧ ¬ Enabled .handOver quiet ∧ ¬ Enabled .transmissionComplete quiet
      ∧ ¬ Enabled .decoderTake quiet ∧ ¬ Enabled .decodeCompletion quiet ∧ ¬ Enabled .listenExpiry quiet
      ∧ ¬ Enabled .csnFall (asked quiet) ∧ ¬ Enabled .restart quiet ∧ ¬ Enabled .collectMessageFinalByte quiet
      ∧ ¬ Enabled (.echoDeadline 0) quiet := by
  refine ⟨rfl, ?_, ?_, ?_, ?_, ?_, ?_, ?_, ?_, ?_, ?_, ?_, ?_, ?_, ?_, ?_⟩ <;>
    simp [Enabled, Completes, quiet, blind, asked, openPort, State.reset, Port.reset, Line.reset]

/-- Every unit code, a station without a tick base, every controller state; the last tick of an element and the one
after. -/
theorem witness_TimeRunsByPeriods :
    quiet.station.held = false ∧ quiet.cfg.unitCode = 1 ∧ fresh.station.held = false ∧ fresh.line.phase = .off
      ∧ ({ cfg with unitCode := 2 } : ConfigRecord).tickPeriods = 16
      ∧ fresh.cfg.unitCode = 0 ∧ quiet.line.phase ≠ .off ∧ quiet.transmit.controller = .idle
      ∧ (withRelay (relayItem (.contending 990) 1 0) (.backoff (.relay 0) 3 63) .idle).transmit.controller
        = .backoff (.relay 0) 3 63
      ∧ (sendingRelay .pending .idle).transmit.controller = .sending (.relay 0) (headerBytes head) 0 .pending
      ∧ (sendingRelay (.accepted .startMarker 63) .busy).transmit.controller
        = .sending (.relay 0) (headerBytes head) 0 (.accepted .startMarker 63)
      ∧ ({ sendingRelay (.accepted .startMarker 63) .busy with line := Line.reset } : State).line.phase = .off
      ∧ streamAt ⟨headerBytes head, [0x41], 0⟩ .startMarker 63 16 = (.startMarker, 79)
      ∧ streamAt ⟨headerBytes head, [0x41], 0⟩ .startMarker 63 17 = (.headerSymbol 0, 0)
      ∧ streamAt ⟨headerBytes head, [0x41], 0⟩ (.bodySymbol 55) 0 31 = (.bodySymbol 55, 31)
      ∧ streamAt ⟨headerBytes head, [0x41], 0⟩ .endMarker 0 48 = (.finished, 0) := by decide

/-- The nearest and the farthest deadline to come, the nearest and the farthest reached; a tick and a period that have
just come. -/
theorem witness_TimeReachesTheMoment :
    quiet.station.held = false ∧ quiet.line.phase ≠ .off ∧ quiet.line.tickPhase < quiet.cfg.tickPeriods
      ∧ quiet.line.tick ≤ 200 ∧ 200 ≤ quiet.line.tick ∧ quiet.station.milliPhase < 16000
      ∧ ¬ Reached quiet.station.milliTimer 1001 ∧ ¬ Reached quiet.station.milliTimer 6100
      ∧ Reached quiet.station.milliTimer 1000 ∧ Reached quiet.station.milliTimer 6101
      ∧ Reached quiet.station.milliTimer 999 ∧ quiet.refclk ≤ 0 ∧ 0 ≤ quiet.refclk := by
  unfold Reached
  decide

theorem witness_ResetClearsEveryBlock :
    Instr.rstnReset = .powerOn ∨ (Instr.rstnReset = .rstnReset ∧ quiet.station.held = false) := by decide

theorem witness_HoldAndRelease :
    heldPart.station.held = true ∧ Instr.risingEdge ≠ .powerOn ∧ Instr.risingEdge ≠ .rstnRelease
      ∧ quiet.station.held = false := by decide

/-- Both ends of every class and of every soft value. -/
theorem witness_MarkClassesAndSoftValues :
    ∀ t ∈ [0, 7, 8, 17, 18, 20, 21, 22, 23, 24, 25, 26, 27, 28, 29, 31, 32, 39, 40, 55, 56, 71, 72, 255], t ≤ 255 := by
  decide

/-- A run of two high samples, the third of which is due. -/
def rising : State := { quiet with line := { quiet.line with runCount := 2, runFirst := 199 } }

/-- On an IDLE and on a BUSY medium; with a run of two, with none, and with one that is complete. -/
theorem witness_RisingEdgeStartsMark :
    rising.station.held = false ∧ rising.line.phase = .dark ∧ rising.line.medium = .idle
      ∧ (∀ g c u, rising.transmit.controller ≠ .backoff g c u)
      ∧ (dark tail).station.held = false ∧ (dark tail).line.phase = .dark ∧ (dark tail).line.medium ≠ .idle
      ∧ rising.line.tick + 1 = riseStamp rising + 2 ∧ quiet.line.tick + 1 = riseStamp quiet
      ∧ ({ rising.line with runCount := 3, runFirst := 198 } : Line).tick = 198 + 2
      ∧ rising.line.tickPhase < rising.cfg.tickPeriods := by
  refine ⟨rfl, rfl, rfl, ?_, rfl, rfl, by decide, rfl, rfl, rfl, by decide⟩
  intro g c u h
  cases h

/-- Contending items below the deferral limit and at it, and every way on of a repeat that is abandoned. -/
def backingRelay (deferrals : Nat) : State :=
  withRelay (relayItem (.contending 990) 1 deferrals) (.backoff (.relay 0) 3 10) .idle
def backingOrigin (requested sent ended deferrals : Nat) : State :=
  withOrigin (originItem (.contending 990) requested sent ended deferrals) (.backoff (.origin 0) 3 10) .idle

theorem witness_RisingEdgeDefersBackoff :
    (backingRelay 0).station.held = false ∧ (backingRelay 0).line.phase = .dark ∧ (backingRelay 0).line.medium = .idle
      ∧ (backingRelay 0).transmit.controller = .backoff (.relay 0) 3 10
      ∧ relayAt (afterRise (backingRelay 0)) 0 = some (relayItem (.contending 990) 1 0)
      ∧ (relayItem (.contending 990) 1 6).deferrals + 1 < (backingRelay 6).cfg.deferralLimit
      ∧ (relayItem (.contending 990) 1 7).deferrals + 1 = (backingRelay 7).cfg.deferralLimit
      ∧ (backingOrigin 2 0 0 6).transmit.controller = .backoff (.origin 0) 3 10
      ∧ (backingOrigin 2 0 0 6).outbox[0]? = some (originItem (.contending 990) 2 0 0 6)
      ∧ (originItem (.contending 990) 2 0 0 6).deferrals + 1 < (backingOrigin 2 0 0 6).cfg.deferralLimit
      ∧ (originItem (.contending 990) 2 0 0 7).deferrals + 1 = (backingOrigin 2 0 0 7).cfg.deferralLimit
      ∧ (repeatOver false (originItem (.contending 990) 2 0 0 7)).repeatsEnded < 2
      ∧ (repeatOver false (originItem (.contending 990) 2 1 1 7)).repeatsEnded = 2
      ∧ 1 ≤ (repeatOver false (originItem (.contending 990) 2 1 1 7)).repeatsSent
      ∧ (repeatOver false (originItem (.contending 990) 1 0 0 7)).repeatsEnded = 1
      ∧ (repeatOver false (originItem (.contending 990) 1 0 0 7)).repeatsSent = 0 := by decide

/-- Both ends of the two marker classes, and the classes around them. -/
theorem witness_MarksOutsideCopies :
    (lit Assembler.reset).station.held = false ∧ (lit Assembler.reset).line.phase = .lit
      ∧ (lit Assembler.reset).assembler.phase = .hunt ∧ (lit tail).assembler.phase = .tail
      ∧ [56, 71].map (fun n => fallEvent n (lit tail)) = [.startMarker, .startMarker]
      ∧ [40, 55].map (fun n => fallEvent n (lit tail)) = [.endMarker, .endMarker]
      ∧ [7, 39, 72, 255].map (fun n => fallEvent n (lit tail)) = [.erasure, .dataSymbol 7, .erasure, .erasure] := by
  decide

theorem witness_HeaderSymbolsAndEarlyEnds :
    (lit (inHeader 190 22)).station.held = false ∧ (lit (inHeader 190 22)).line.phase = .lit
      ∧ (lit (inHeader 190 22)).assembler.phase = .header ∧ (lit (inHeader 190 22)).assembler.headerSums.length = 64
      ∧ symbolOf (fallEvent 8 (lit (inHeader 190 22))) = some (-7, false)
      ∧ symbolOf (fallEvent 72 (lit (inHeader 190 22))) = some (0, true)
      ∧ (inHeader 190 22).headerIndex + 1 < 192 ∧ (inHeader 190 22).erasureRun + 1 < 24
      ∧ (inHeader 190 23).erasureRun + 1 = 24
      ∧ fallEvent 48 (lit (inHeader 190 23)) = .endMarker ∧ fallEvent 64 (lit (inHeader 190 23)) = .startMarker := by
  decide

/-- A header that is accepted, and one that an erasure leaves undecided. -/
theorem witness_HeaderDecidedAtLastSymbol :
    (lit cleanSums).station.held = false ∧ (lit cleanSums).line.phase = .lit ∧ (lit cleanSums).assembler.phase = .header
      ∧ (lit cleanSums).assembler.headerSums.length = 64 ∧ (lit cleanSums).assembler.headerIndex = 191
      ∧ symbolOf (fallEvent 72 (lit cleanSums)) = some (0, true)
      ∧ decideHeader (headerTaken cleanSums 0 true).headerSums = some head
      ∧ decideHeader (headerTaken (inHeader 191 23) 0 true).headerSums = none
      ∧ (0 : Int) ∈ (inHeader 191 23).headerSums ∧ (0 : Int) ∉ cleanSums.headerSums
      ∧ cleanSums.headerSums.length = 64 ∧ (headerBytes head).length = 8
      ∧ (∀ i v, cleanSums.headerSums[i]? = some v →
        ((headerBytes head).getD (i / 8) 0).getLsbD (i % 8) = decide (0 < v)) := by
  refine ⟨rfl, rfl, rfl, by decide, rfl, by decide, by decide, by decide, by decide, by decide, by decide, by decide, ?_⟩
  have h : ∀ i : Fin 64, ((headerBytes head).getD (i / 8) 0).getLsbD (i % 8)
      = decide (0 < cleanSums.headerSums.getD i 0) := by decide
  intro i v hv
  have hi : i < 64 := (List.getElem?_eq_some_iff.1 hv).1
  obtain rfl : cleanSums.headerSums.getD i 0 = v := by rw [List.getD_eq_getElem?_getD, hv]; rfl
  exact h ⟨i, hi⟩

/-- The last symbol but one; an erasure at every run the clauses meet at. -/
theorem witness_BodySymbolsAreStored :
    (lit (inBody 54 22)).station.held = false ∧ (lit (inBody 54 22)).line.phase = .lit
      ∧ (lit (inBody 54 22)).assembler.phase = .body ∧ (lit (inBody 54 22)).assembler.decided = some head
      ∧ symbolOf (fallEvent 72 (lit (inBody 54 22))) = some (0, true)
      ∧ symbolOf (fallEvent 16 (lit (inBody 54 23))) = some (-7, false)
      ∧ (inBody 54 22).bodyIndex + 1 < 16 * head.identity.length + 40 ∧ (inBody 54 22).erasureRun + 1 < 24
      ∧ symbolOf (fallEvent 72 (lit (inBody 0 24))) = some (0, true) ∧ (inBody 0 24).erasureRun = 24
      ∧ (inBody 0 24).bodyIndex + 1 < 16 * head.identity.length + 40 := by decide

theorem witness_CopyEndsWithVerdict :
    (lit (inBody 55 23)).station.held = false ∧ (lit (inBody 55 23)).line.phase = .lit
      ∧ (lit (inBody 55 23)).assembler.phase = .body ∧ (lit (inBody 55 23)).assembler.decided = some head
      ∧ symbolOf (fallEvent 72 (lit (inBody 55 23))) = some (0, true)
      ∧ (inBody 55 23).bodyIndex + 1 = 16 * head.identity.length + 40
      ∧ (inBody 54 23).bodyIndex + 1 < 16 * head.identity.length + 40 ∧ (inBody 54 23).erasureRun + 1 = 24
      ∧ fallEvent 48 (lit (inBody 54 23)) = .endMarker ∧ fallEvent 64 (lit (inBody 54 23)) = .startMarker := by decide

/-- A station that has the key in its history. -/
def knowing : State := { quiet with history := [key] }

theorem witness_VerdictOrder :
    (⟨10, 5, 0⟩ : Key).origin = quiet.cfg.stationId ∧ (⟨10, 5, 0⟩ : Key).session = quiet.station.session
      ∧ (⟨10, 4, 0⟩ : Key).session ≠ quiet.station.session ∧ key.origin ≠ quiet.cfg.stationId
      ∧ head.key ∈ knowing.history ∧ head.key ∉ (withEntry entry).history
      ∧ entryAt (withEntry entry) 0 = some entry ∧ entry.key = head.key ∧ entry.identity = head.identity
      ∧ ({ entry with identity := { ident with urgent := true } } : Entry).identity ≠ head.identity
      ∧ (∀ i e, entryAt (withEntry { entry with key := ⟨20, 1, 101⟩ }) i = some e → e.key ≠ head.key) := by
  refine ⟨rfl, rfl, by decide, by decide, by decide, by decide, rfl, rfl, rfl, by decide, ?_⟩
  intro i e h
  obtain ⟨-, rfl⟩ := entry_of_withEntry h
  decide

theorem witness_CopiesThatReachNoEntry :
    verdictOf quiet { head with key := ⟨10, 5, 11⟩ } = .echo
      ∧ verdictOf quiet { head with key := ⟨10, 4, 11⟩ } = .selfConflict
      ∧ verdictOf knowing head = .duplicate
      ∧ verdictOf (withEntry { entry with identity := { ident with urgent := true } }) head = .keyConflict := by decide

/-- A table in which every entry is taken, one of them DECODING. -/
def full : State :=
  { quiet with
    table := some { entry with key := ⟨20, 1, 101⟩, state := .decoding }
      :: List.replicate 7 (some { entry with key := ⟨20, 1, 102⟩ }) }

theorem witness_NewCopyTakesAnEntry :
    verdictOf quiet copy.header = .new ∧ quiet.table[0]? = some none ∧ (∀ j, j < 0 → quiet.table[j]? ≠ some none)
      ∧ verdictOf full copy.header = .new ∧ none ∉ full.table
      ∧ entryAt full 7 = some { entry with key := ⟨20, 1, 102⟩ }
      ∧ ({ entry with key := ⟨20, 1, 102⟩ } : Entry).state ≠ .decoding :=
  ⟨by decide, rfl, fun _ h => absurd h (Nat.not_lt_zero _), by decide, by decide, rfl, by decide⟩

theorem witness_MatchCopyMerges :
    verdictOf (withEntry { entry with combined := 14 }) copy.header = .matched 0
      ∧ entryAt (withEntry { entry with combined := 14 }) 0 = some { entry with combined := 14 }
      ∧ verdictOf (withEntry { entry with combined := 15 }) copy.header = .matched 0 := by decide

theorem witness_SilenceEndsCopies :
    (dark tail).station.held = false ∧ (dark tail).station.state ≠ .unconfigured ∧ (dark tail).line.phase = .dark
      ∧ (dark tail).line.silenceRaised = false ∧ (dark Assembler.reset).assembler.phase = .hunt
      ∧ (dark tail).assembler.phase = .tail ∧ (dark (inHeader 191 0)).assembler.phase = .header
      ∧ (dark (inBody 0 0)).assembler.phase = .body ∧ (dark (inBody 0 0)).assembler.decided = some head
      ∧ ({ dark (inBody 0 0) with
          line := { (dark (inBody 0 0)).line with medium := .idle } } : State).line.medium = .idle
      ∧ (racing 2).station.held = false ∧ (racing 2).line.phase = .dark ∧ (racing 2).line.silenceRaised = false
      ∧ (racing 2).assembler.phase = .body ∧ (racing 2).assembler.decided = some head
      ∧ (racing 2).line.medium = .busy ∧ (racing 2).transmit.controller = .backoff (.relay 0) 0 0
      ∧ relayAt (racing 2) 0 = some (relayItem (.contending 990) 2 0)
      ∧ relayAt (racing 3) 0 = some (relayItem (.contending 990) 3 0)
      ∧ (relayItem (.contending 990) 2 0).state = .contending 990 ∧ (relayItem (.contending 990) 2 0).key = head.key
      ∧ verdictOf (racing 2) head = .duplicate := by decide

theorem witness_EveryCommandCompletes : Instr.grant ≠ .silence := by decide

theorem witness_BlindingEndResumesReception :
    blind.station.held = false ∧ blind.line.phase = .blind ∧ blind.line.blindingDeadline = some 232 := by decide

/-- A READY item alone; none READY. -/
theorem witness_ArbiterFollowsGrantOrder :
    isReady (withOrigin (originItem (.ready 990) 1 0 0 0) .idle .idle) (.origin 0) ∧ (∀ g, ¬ isReady quiet g)
      ∧ (∀ o, isReady (withOrigin (originItem (.ready 990) 1 0 0 0) .idle .idle) o → o ≠ .origin 0 →
        grantBefore (withOrigin (originItem (.ready 990) 1 0 0 0) .idle .idle) (.origin 0) o) := by
  have hr := no_relay (s := quiet) rfl
  refine ⟨⟨_, _, rfl, rfl⟩, ?_, ?_⟩
  · rintro (i | i)
    · rintro ⟨r, t, h, -⟩
      rw [hr] at h; cases h
    · rintro ⟨o, t, h, -⟩
      cases h
  · rintro (i | i) h hn
    · obtain ⟨r, t, h, -⟩ := h
      have := (hr i).symm.trans h
      cases this
    · obtain ⟨o, t, h, -⟩ := h
      rcases i with _ | i
      · exact absurd rfl hn
      · cases h

theorem witness_GrantDrawsBackoff :
    (withRelay (relayItem (.ready 990) 1 0) .idle .busy).station.held = false
      ∧ (withRelay (relayItem (.ready 990) 1 0) .idle .busy).transmit.controller = .idle
      ∧ arbitrate (withRelay (relayItem (.ready 990) 1 0) .idle .busy) = some (.relay 0)
      ∧ readyTime (withRelay (relayItem (.ready 990) 1 0) .idle .busy) (.relay 0) = 990
      ∧ (withRelay (relayItem (.ready 990) 1 0) .idle .busy).transmit.view = .busy
      ∧ arbitrate (withOrigin (originItem (.ready 990) 1 0 0 0) .idle .idle) = some (.origin 0)
      ∧ readyTime (withOrigin (originItem (.ready 990) 1 0 0 0) .idle .idle) (.origin 0) = 990
      ∧ (withOrigin (originItem (.ready 990) 1 0 0 0) .idle .idle).transmit.view = .idle := by decide

theorem witness_SlotEndCountsDown :
    (backingRelay 0).station.held = false ∧ (backingRelay 0).transmit.view = .idle
      ∧ (backingRelay 0).transmit.controller = .backoff (.relay 0) (2 + 1) 10 := by decide

theorem witness_BackoffCompletionSendsOrSuppresses :
    (withRelay (relayItem (.contending 990) 3 0) (.backoff (.relay 0) 0 0) .idle).station.held = false
     
      ∧ (withRelay (relayItem (.contending 990) 3 0) (.backoff (.relay 0) 0 0) .idle).transmit = ⟨.backoff (.relay 0) 0 0, .idle⟩
      ∧ relayAt (withRelay (relayItem (.contending 990) 3 0) (.backoff (.relay 0) 0 0) .idle) 0
        = some (relayItem (.contending 990) 3 0)
      ∧ quiet.cfg.threshold ≤ (relayItem (.contending 990) 3 0).heard
      ∧ (relayItem (.contending 990) 2 0).heard < quiet.cfg.threshold
      ∧ (withOrigin (originItem (.contending 990) 1 0 0 0) (.backoff (.origin 0) 0 0) .idle).transmit
        = ⟨.backoff (.origin 0) 0 0, .idle⟩
      ∧ (withOrigin (originItem (.contending 990) 1 0 0 0) (.backoff (.origin 0) 0 0) .idle).outbox[0]?
        = some (originItem (.contending 990) 1 0 0 0) := by decide

theorem witness_HandOverStartsTransmission :
    (sendingRelay .pending .idle).station.held = false
      ∧ (sendingRelay .pending .idle).transmit.controller = .sending (.relay 0) (headerBytes head) 0 .pending
      ∧ (sendingRelay .pending .idle).line.medium = .idle := by decide

theorem witness_RefusedHandOverDrawsAgain :
    (sendingRelay .pending .busy).station.held = false
      ∧ (sendingRelay .pending .busy).transmit.controller = .sending (.relay 0) (headerBytes head) 0 .pending
      ∧ (sendingRelay .pending .busy).line.medium = .busy
      ∧ relayAt (sendingRelay .pending .busy) 0 = some (relayItem (.sending 990) 1 0)
      ∧ (sendingOrigin .pending .busy).transmit.controller = .sending (.origin 0) (headerBytes head) 0 .pending
      ∧ (sendingOrigin .pending .busy).outbox[0]? = some (originItem (.sending 990) 1 0 0 0) := by decide

theorem witness_TransmissionCompleteHandsBack :
    (sendingRelay (.accepted .endMarker 47) .busy).station.held = false
      ∧ (sendingRelay (.accepted .endMarker 47) .busy).transmit.controller
        = .sending (.relay 0) (headerBytes head) 0 (.accepted .endMarker 47)
      ∧ relayAt (sendingRelay (.accepted .endMarker 47) .busy) 0 = some (relayItem (.sending 990) 1 0)
      ∧ (sendingOrigin (.accepted .startMarker 0) .busy).transmit.controller
        = .sending (.origin 0) (headerBytes head) 0 (.accepted .startMarker 0)
      ∧ (sendingOrigin (.accepted .startMarker 0) .busy).outbox[0]? = some (originItem (.sending 990) 1 0 0 0)
      ∧ (repeatOver true (originItem (.sending 990) 1 0 0 0)).repeatsEnded = 1
      ∧ 1 ≤ (repeatOver true (originItem (.sending 990) 1 0 0 0)).repeatsSent
      ∧ (repeatOver true (originItem (.sending 990) 2 0 0 0)).repeatsEnded < 2 := by decide

/-- The first and the last body symbol of a body of length 1. -/
theorem witness_StreamCarriesTheEncodedBody :
    0 < 16 * (⟨[], [0x41], 0⟩ : TxCopy).payload.length + 40
      ∧ 55 < 16 * (⟨[], [0x41], 0⟩ : TxCopy).payload.length + 40 := by decide

theorem witness_DecoderTakesTheHead :
    queued.station.held = false ∧ queued.decoder = none ∧ queued.decodeQueue = [0]
      ∧ entryAt queued 0 = some { entry with state := .queued } ∧ queued.slots[0]? = some Slot.free
      ∧ Slot.free.isFree = true ∧ (∀ j x, j < 0 → queued.slots[j]? = some x → x.isFree = false) :=
  ⟨rfl, rfl, rfl, rfl, rfl, rfl, fun _ _ h => absurd h (Nat.not_lt_zero _)⟩

/-- A decode whose snapshot fails the body check. -/
def failing (e : Entry) : State :=
  { withEntry { e with state := .decoding } with
    decoder := some { decode with snapshot := List.replicate 56 7 } }

theorem witness_FailedDecodeSettlesTheEntry :
    (failing entry).station.held = false
      ∧ (failing entry).decoder = some { decode with snapshot := List.replicate 56 7 }
      ∧ entryAt (failing entry) 0 = some { entry with state := .decoding }
      ∧ decodeOutcome 1 (identityBlock key ident) (List.replicate 56 7) = none
      ∧ entryAt (failing { entry with final := true }) 0 = some { entry with state := .decoding, final := true }
      ∧ entryAt (failing { entry with recheck := true }) 0 = some { entry with state := .decoding, recheck := true }
      ∧ entry.accumulators.count 0 ≤ (16 * entry.identity.length + 40) / 4
      ∧ entryAt (failing { entry with recheck := true, accumulators := List.replicate 56 0 }) 0
        = some { entry with state := .decoding, recheck := true, accumulators := List.replicate 56 0 }
      ∧ ¬ (List.replicate 56 (0 : Int)).count 0 ≤ (16 * entry.identity.length + 40) / 4 := by decide

/-- A station whose history, Inbox and Relay Schedule are full, and one with a place left in each. -/
def crowded (free : Bool) : State :=
  let other : RelayItem := { relayItem .holding 1 0 with key := ⟨21, 1, 100⟩ }
  { decoding with
    history := List.replicate (if free then 31 else 32) ⟨22, 1, 100⟩
    inbox := List.replicate (if free then 11 else 12) message
    relays := (if free then none else some other) :: List.replicate 14 (some other) }

theorem witness_SuccessfulDecodeDelivers :
    (crowded true).station.held = false ∧ (crowded true).decoder = some decode
      ∧ entryAt (crowded true) 0 = some { entry with state := .decoding, accumulators := snapshot }
      ∧ decodeOutcome 1 (identityBlock key ident) snapshot = some [0x41]
      ∧ (crowded true).history.length < 32 ∧ (crowded true).inbox.length < 12
      ∧ RelayAsked (crowded true) { entry with state := .decoding, accumulators := snapshot }
      ∧ (crowded true).relays[0]? = some none ∧ 1 ≤ (crowded true).cfg.holdOffWindow
      ∧ (crowded false).history.length = 32 ∧ 12 ≤ (crowded false).inbox.length ∧ none ∉ (crowded false).relays
      ∧ RelayAsked (crowded false) { entry with state := .decoding, accumulators := snapshot }
      ∧ ¬ RelayAsked (crowded true) { entry with state := .decoding, accumulators := snapshot, bestHops := 0 } := by
  decide

theorem witness_CleanSnapshotDecodes :
    snapshot.length = 16 * [(0x41 : Byte)].length + 40
      ∧ ∀ (k : Nat) (v : Int) (b : Bool), snapshot[k]? = some v →
        (encodeBits (informationBits [0x41] (bodyCheck (identityBlock key ident) [0x41])))[k]? = some b →
        (b = true → 0 < v) ∧ (b = false → v < 0) := by
  refine ⟨by decide, ?_⟩
  intro k v b hv hb
  have h : snapshot[k]? = (code[k]?).map fun b => if b then 7 else -7 := List.getElem?_map ..
  have hb' : code[k]? = some b := hb
  rw [h, hb'] at hv
  cases b <;> cases hv <;> decide

theorem witness_EntryDeadlineFreesOrMarks :
    (withEntry entry).station.held = false ∧ entryAt (withEntry entry) 0 = some entry ∧ entry.final = false
      ∧ entry.state = .waiting ∧ entryAt queued 0 = some { entry with state := .queued }
      ∧ ({ entry with state := .queued } : Entry).state ≠ .waiting := by decide

theorem witness_RelayHoldOffExpiryChecks :
    (withRelay (relayItem .holding 3 0) .idle .idle).station.held = false
      ∧ relayAt (withRelay (relayItem .holding 3 0) .idle .idle) 0 = some (relayItem .holding 3 0)
      ∧ (relayItem .holding 3 0).state = .holding ∧ quiet.cfg.threshold ≤ (relayItem .holding 3 0).heard
      ∧ (relayItem .holding 2 0).heard < quiet.cfg.threshold := by decide

theorem witness_OriginHoldOffExpiryReadies :
    (withOrigin (originItem (.holding 1007) 2 1 1 0) .idle .idle).station.held = false
     
      ∧ (withOrigin (originItem (.holding 1007) 2 1 1 0) .idle .idle).outbox[0]? = some (originItem (.holding 1007) 2 1 1 0)
      ∧ (originItem (.holding 1007) 2 1 1 0).state = .holding 1007 := by decide

theorem witness_EchoDeadlineReports :
    (withOrigin (originItem (.echoWait 1007) 1 1 1 0) .idle .idle).station.held = false
      ∧ (withOrigin (originItem (.echoWait 1007) 1 1 1 0) .idle .idle).outbox[0]?
        = some (originItem (.echoWait 1007) 1 1 1 0)
      ∧ (originItem (.echoWait 1007) 1 1 1 0).state = .echoWait 1007 := by decide

theorem witness_ListenExpiryStartsRunning :
    listening.station.held = false ∧ listening.station.state = .listening
      ∧ listening.station.listenDeadline = some 1300 := by decide

theorem witness_TransactionsOpenAndClose : quiet.station.held = false ∧ quiet.port.csnSeen = true := by decide

/-- A rising, a falling and no edge of SCK; CSn high, CSn last seen high, phase IDLE. -/
theorem witness_SpiShiftsBits :
    (⟨false, true, true, false, true⟩ : Pins).csn = false ∧ openPort.csnSeen = false ∧ openPort.phase ≠ .idle
      ∧ openPort.sckSeen = false ∧ (⟨false, true, true, false, true⟩ : Pins).sck = true
      ∧ ({ openPort with sckSeen := true } : Port).sckSeen = true
      ∧ (⟨false, false, true, false, true⟩ : Pins).sck = false
      ∧ openPort.sckSeen = (⟨false, false, true, false, true⟩ : Pins).sck
      ∧ (⟨false, true, true, true, true⟩ : Pins).csn = true ∧ ({ openPort with csnSeen := true } : Port).csnSeen = true
      ∧ ({ openPort with phase := .idle } : Port).phase = .idle := by decide

/-- A byte that does not complete a request and one that does, a response's last byte but one and its last. -/
theorem witness_ByteCompleteByPhase :
    (asked quiet).station.held = false ∧ (asked quiet).port.phase = .request
      ∧ requestComplete ((asked quiet).port.request ++ [0x31]) = false
      ∧ requestComplete (({ openPort with request := [0x31] } : Port).request ++ [0]) = true
      ∧ (responding quiet ⟨[0, 0], .nothing, true⟩).port.phase = .response
      ∧ (responding quiet ⟨[0, 0], .nothing, true⟩).port.response = some ⟨[0, 0], .nothing, true⟩
      ∧ (responding quiet ⟨[0, 0], .nothing, true⟩).port.position + 1 < [(0 : Byte), 0].length
      ∧ ({ openPort with position := 1 } : Port).position + 1 = [(0 : Byte), 0].length
      ∧ ({ openPort with phase := .trailing } : Port).phase = .trailing ∧ quiet.port.phase = .idle := by decide

/-- An open transaction in which nothing has come takes any request whose bytes say what it is. -/
theorem completes_asked {s : State} {r : Request} (h1 : requestComplete r.bytes = true) (h2 : parseRequest r.bytes = r)
    (h3 : r.bytes ≠ []) : Completes r (asked s) :=
  ⟨rfl, h1, h2, r.bytes, h3, rfl⟩

/-- Every field at its lowest, every field at its highest, a repeated group. -/
theorem witness_ConfigureTaken :
    (asked fresh).station.held = false ∧ Completes (.configure params) (asked fresh)
      ∧ Completes (.configure params) (asked quiet) ∧ (asked quiet).station.state ≠ .unconfigured
      ∧ (asked fresh).station.state = .unconfigured
      ∧ ConfigInRange ⟨1, 0, 0, 0, 0, 0, 0, 0, 2, 1, 1, 1, 4⟩
      ∧ ConfigInRange ⟨254, 4, 1, 2, 3, 4, 2, 1, 8, 255, 7, 255, 15⟩
      ∧ ¬ ConfigInRange ⟨10, 2, 3, 3, 0, 0, 1, 1, 3, 40, 4, 20, 8⟩ := by
  refine ⟨rfl, completes_asked (by decide) (by decide) (by decide),
    completes_asked (by decide) (by decide) (by decide), by decide, rfl, ?_, ?_, ?_⟩ <;>
    simp [ConfigInRange]

/-- A station whose Outbox is full. -/
def outboxFull : State := { quiet with outbox := List.replicate 4 (originItem .held 1 0 0 0) }

/-- The least and the longest payload, a payload too long, a full Outbox, a free slot. -/
theorem witness_SubmitTaken :
    (asked quiet).station.held = false ∧ Completes (.submit submission) (asked quiet)
      ∧ (asked quiet).station.state ≠ .unconfigured ∧ (asked fresh).station.state = .unconfigured
      ∧ Completes (.submit submission) (asked fresh)
      ∧ SubmitInRange { submission with payload := [0] } 10
      ∧ SubmitInRange { submission with kind := 0, destination := 254, hops := 7, payload := List.replicate 48 0 } 10
      ∧ ¬ SubmitInRange { submission with payload := List.replicate 49 0 } 10
      ∧ SubmitInRange submission 10
      ∧ Completes (.submit submission) (asked outboxFull) ∧ 4 ≤ (asked outboxFull).outbox.length
      ∧ (asked quiet).outbox.length < 4
      ∧ (asked quiet).slots[0]? = some Slot.free ∧ Slot.free.isFree = true
      ∧ (∀ j x, j < 0 → (asked quiet).slots[j]? = some x → x.isFree = false) := by
  refine ⟨rfl, completes_asked (by decide) (by decide) (by decide), by decide, rfl,
    completes_asked (by decide) (by decide) (by decide), ?_, ?_, ?_, ?_,
    completes_asked (by decide) (by decide) (by decide), by decide, by decide, rfl, rfl,
    fun _ _ h => absurd h (Nat.not_lt_zero _)⟩ <;>
    simp [SubmitInRange, submission]

theorem witness_CollectsCopyTheHead :
    (asked quiet).station.held = false ∧ Completes .collectMessage (asked quiet)
      ∧ Completes .collectReport (asked quiet)
      ∧ Completes .collectMessage (asked fresh) ∧ Completes .collectReport (asked fresh)
      ∧ (asked fresh).station.state = .unconfigured ∧ (asked quiet).station.state ≠ .unconfigured
      ∧ (asked quiet).inbox = [] ∧ (asked quiet).reports = [] ∧ Completes .collectMessage (asked stocked)
      ∧ (asked stocked).inbox = [message] ∧ (asked stocked).reports = [report] := by
  refine ⟨rfl, ?_, ?_, ?_, ?_, rfl, by decide, rfl, rfl, ?_, rfl, rfl⟩ <;>
    exact completes_asked (by decide) (by decide) (by decide)

/-- Masks and clear options at their bounds. -/
theorem witness_ReadsAndClears :
    (asked quiet).station.held = false ∧ Completes .readStatus (asked quiet) ∧ Completes (.readCounters 0) (asked quiet)
      ∧ Completes (.readCounters 1) (asked quiet) ∧ Completes (.readCounters 2) (asked quiet)
      ∧ 2 ≤ (2 : Byte).toNat ∧ Completes (.clearEvents 15) (asked quiet) ∧ (15 : Byte).toNat < 16
      ∧ Completes (.clearEvents 16) (asked quiet) ∧ 16 ≤ (16 : Byte).toNat ∧ Completes (.clearEvents 15) (asked fresh)
      ∧ (asked fresh).station.state = .unconfigured ∧ (asked quiet).station.state ≠ .unconfigured := by
  refine ⟨rfl, ?_, ?_, ?_, ?_, by decide, ?_, by decide, ?_, by decide, ?_, rfl, by decide⟩ <;>
    exact completes_asked (by decide) (by decide) (by decide)

theorem witness_RestartClearsTraffic :
    (asked quiet).station.held = false ∧ Completes .restart (asked quiet) ∧ Completes .restart (asked fresh)
      ∧ (asked fresh).station.state = .unconfigured ∧ (asked quiet).station.state ≠ .unconfigured := by
  refine ⟨rfl, ?_, ?_, rfl, by decide⟩ <;> exact completes_asked (by decide) (by decide) (by decide)

theorem witness_MalformedRequestAnswered :
    (asked fresh).station.held = false ∧ Completes (.malformed [0x99, 0]) (asked fresh)
      ∧ Completes (.malformed [0x31, 59]) (asked quiet) := by
  refine ⟨rfl, ?_, ?_⟩ <;> exact completes_asked (by decide) (by decide) (by decide)

/-- Heads that are present and that a RESTART has removed, a full Report Queue with an item that waits. -/
def reportsFull : State :=
  { quiet with reports := List.replicate 8 report, outbox := [originItem .reportPending 1 1 1 0] }

theorem witness_FinalBytesCommitReads :
    (responding stocked ⟨[0, 1, 0x41], .inboxHead, true⟩).station.held = false
      ∧ (responding stocked ⟨[0, 1, 0x41], .inboxHead, true⟩).port.phase = .response
      ∧ (responding stocked ⟨[0, 1, 0x41], .inboxHead, true⟩).port.response = some ⟨[0, 1, 0x41], .inboxHead, true⟩
      ∧ (responding stocked ⟨[0, 1, 0x41], .inboxHead, true⟩).inbox = [message]
      ∧ (responding quiet ⟨[0, 1, 0x41], .inboxHead, false⟩).port.response = some ⟨[0, 1, 0x41], .inboxHead, false⟩
      ∧ (responding stocked ⟨[0, 1, 0], .reportHead, true⟩).reports = [report] ∧ ([] : List Report).length ≠ 7
      ∧ (responding reportsFull ⟨[0, 1, 0], .reportHead, true⟩).reports = report :: List.replicate 7 report
      ∧ (List.replicate 7 report).length = 7
      ∧ (responding reportsFull ⟨[0, 1, 0], .reportHead, true⟩).outbox[0]? = some (originItem .reportPending 1 1 1 0)
     
      ∧ (responding quiet ⟨[0, 1, 0], .clearCounters, true⟩).port.response = some ⟨[0, 1, 0], .clearCounters, true⟩ := by decide

/-- Every field of a header at its lowest and at its highest. -/
theorem witness_HeaderCodesAgree :
    1 ≤ (⟨⟨1, 0, 0⟩, ⟨0, .station, false, 1⟩, 1, 0⟩ : Header).key.origin.toNat
      ∧ (⟨⟨254, 15, 4095⟩, ⟨255, .all, true, 48⟩, 254, 7⟩ : Header).key.origin.toNat ≤ 254
      ∧ (⟨⟨254, 15, 4095⟩, ⟨255, .all, true, 48⟩, 254, 7⟩ : Header).relayer.toNat ≤ 254
      ∧ (⟨⟨254, 15, 4095⟩, ⟨255, .all, true, 48⟩, 254, 7⟩ : Header).identity.length ≤ 48
      ∧ acceptHeader (headerBytes ⟨⟨1, 0, 0⟩, ⟨0, .station, false, 1⟩, 1, 0⟩)
        = some ⟨⟨1, 0, 0⟩, ⟨0, .station, false, 1⟩, 1, 0⟩
      ∧ acceptHeader (headerBytes ⟨⟨254, 15, 4095⟩, ⟨255, .all, true, 48⟩, 254, 7⟩)
        = some ⟨⟨254, 15, 4095⟩, ⟨255, .all, true, 48⟩, 254, 7⟩ := by decide

/-- The longest SUBMIT; a P of 58 and of 59. -/
theorem witness_RequestCodesAgree :
    (∀ bytes, Request.submit { submission with payload := List.replicate 52 0 } ≠ .malformed bytes)
      ∧ (List.replicate 52 (0 : Byte)).length ≤ 52
      ∧ requestComplete (0x12 :: 58 :: List.replicate 58 0) = true ∧ requestComplete [0x12, 59] = true
      ∧ requestComplete [0x31, 0] = true := by
  refine ⟨fun _ h => ?_, by decide, by decide, by decide, by decide⟩
  cases h

/-! ### Sound states that a step leaves -/

/-- A full Report Queue; a station that holds one message in the Body Store, whose Decoder is IDLE and whose Outbox is
empty. -/
theorem witness_StepKeepsTheBounds :
    reportsFull.ShapesHold ∧ reportsFull.WithinCapacity
      ∧ (∃ t, step { reportsFull with pending := [.csnFall] } = .next t)
      ∧ stocked.ShapesHold ∧ stocked.WithinCapacity ∧ stocked.HoldersAgree ∧ stocked.decoder = none
      ∧ stocked.outbox.length < 4 ∧ ∃ t, step { stocked with pending := [.csnFall] } = .next t := by
  have none_pending : ∀ o ∈ stocked.outbox, o.state = .reportPending → stocked.reports.length = 8 := nofun
  refine ⟨⟨rfl, rfl, rfl, rfl, rfl⟩, ⟨by decide, by decide, by decide, by decide, fun _ _ _ => rfl⟩, ⟨_, rfl⟩,
    ⟨rfl, rfl, rfl, rfl, rfl⟩, ⟨by decide, by decide, by decide, by decide, none_pending⟩, ?_, rfl, by decide, _, rfl⟩
  have slots : ∀ {k sl}, stocked.slots[k]? = some sl → (k = 0 ∧ sl = ⟨[0x41], true, false, false, false⟩)
      ∨ (k ≠ 0 ∧ sl = Slot.free) := by
    intro k sl h
    rcases k with _ | k
    · exact .inl ⟨rfl, (Option.some.inj h).symm⟩
    · have h : (List.replicate 31 Slot.free)[k]? = some sl := h
      rw [List.getElem?_replicate] at h
      split at h
      · exact .inr ⟨Nat.succ_ne_zero k, (Option.some.inj h).symm⟩
      · cases h
  have relays := no_relay (s := stocked) rfl
  refine ⟨?_, ?_, ?_, ?_, by decide, ?_, by decide, by decide, by decide⟩
  · intro k
    constructor
    · rintro ⟨sl, h, hb⟩
      obtain ⟨rfl, -⟩ | ⟨-, rfl⟩ := slots h
      · exact ⟨message, List.mem_singleton.2 rfl, rfl⟩
      · cases hb
    · rintro ⟨m, hm, rfl⟩
      obtain rfl : m = message := List.mem_singleton.1 hm
      exact ⟨_, rfl, rfl⟩
  · refine fun k => ⟨?_, fun ⟨i, r, h, _⟩ => by rw [relays] at h; cases h⟩
    rintro ⟨sl, h, hb⟩
    obtain ⟨-, rfl⟩ | ⟨-, rfl⟩ := slots h <;> cases hb
  · refine fun k => ⟨?_, fun ⟨o, h, _⟩ => nomatch h⟩
    rintro ⟨sl, h, hb⟩
    obtain ⟨-, rfl⟩ | ⟨-, rfl⟩ := slots h <;> cases hb
  · refine fun k => ⟨?_, fun ⟨d, h, _⟩ => nomatch h⟩
    rintro ⟨sl, h, hb⟩
    obtain ⟨-, rfl⟩ | ⟨-, rfl⟩ := slots h <;> cases hb
  · intro i j r q h
    rw [relays] at h
    cases h

/-- An IDLE line; a relay item in its backoff, with the last slot to be counted at its end. -/
theorem witness_StepKeepsTheMediumAgreement :
    ({ quiet with pending := [.risingEdge] } : State).MediumAgrees
      ∧ (∃ t, step { quiet with pending := [.risingEdge] } = .next t)
      ∧ (withRelay (relayItem (.contending 990) 1 0) (.backoff (.relay 0) 7 64) .idle).GrantAgrees := by
  refine ⟨⟨rfl, fun _ => ⟨rfl, rfl⟩, fun _ => rfl, fun h => nomatch h⟩, ⟨_, rfl⟩, ?_, ?_, ?_⟩
  · rintro (i | i)
    · constructor
      · rintro ⟨r, t, h, -⟩
        obtain ⟨rfl, -⟩ := only_first h
        exact ⟨7, 64, rfl⟩
      · rintro ⟨c, u, h⟩
        cases h
        exact ⟨_, 990, rfl, rfl⟩
    · refine ⟨?_, fun ⟨c, u, h⟩ => nomatch h⟩
      rintro ⟨o, t, h, -⟩
      cases h
  · rintro (i | i)
    · refine ⟨?_, fun ⟨h, b, x, hc⟩ => nomatch hc⟩
      rintro ⟨r, t, h, hs⟩
      obtain ⟨-, rfl⟩ := only_first h
      cases hs
    · refine ⟨?_, fun ⟨h, b, x, hc⟩ => nomatch hc⟩
      rintro ⟨o, t, h, -⟩
      cases h
  · intro g c u h
    cases h
    decide

theorem witness_StepKeepsAttn :
    ({ stocked with pending := [.csnFall] } : State).AttnFollows
      ∧ ∃ t, step { stocked with pending := [.csnFall] } = .next t :=
  ⟨⟨rfl, fun h => nomatch h⟩, _, rfl⟩

/-- An entry that waits for the Decoder, and a relay item. -/
def queuedAndRelaying : State :=
  { queued with relays := some (relayItem .holding 1 0) :: List.replicate 14 none, pending := [.decoderTake] }

theorem witness_StepKeepsKeysApart : queuedAndRelaying.KeysApart ∧ ∃ t, step queuedAndRelaying = .next t := by
  have h : ∀ {i f}, entryAt queuedAndRelaying i = some f → i = 0 ∧ f = { entry with state := .queued } :=
    fun h => only_first h
  refine ⟨⟨?_, ?_, List.nodup_nil, ?_, List.nodup_singleton 0, ?_, ?_⟩, _, rfl⟩
  · intro i j e f hi hj _
    rw [(h hi).1, (h hj).1]
  · intro i j r q hi hj _
    rw [(only_first hi).1, (only_first hj).1]
  · intro i e _ hm
    cases hm
  · intro i
    constructor
    · intro hm
      obtain rfl : i = 0 := List.mem_singleton.1 hm
      exact ⟨_, rfl, rfl⟩
    · rintro ⟨e, he, -⟩
      rw [(h he).1]
      exact List.mem_singleton.2 rfl
  · intro i
    constructor
    · rintro ⟨e, he, hs⟩
      rw [(h he).2] at hs
      cases hs
    · rintro ⟨d, hd, -⟩
      cases hd

/-- An entry that waits for the Decoder, with a header all but received behind it. -/
def queuedAndReceiving : State := { queued with assembler := cleanSums, pending := [.decoderTake] }

theorem witness_StepKeepsEntriesInRange :
    queuedAndReceiving.EntriesBounded ∧ ∃ t, step queuedAndReceiving = .next t := by
  refine ⟨⟨?_, ⟨by decide, ?_, by decide, nofun, by decide, ⟨rfl, ?_⟩, ⟨by decide, nofun⟩, by decide⟩⟩, _, rfl⟩
  · intro i e h
    obtain ⟨-, rfl⟩ := entry_of_withEntry h
    refine ⟨by decide, by decide, rfl, ?_, by decide, by decide, by decide, by decide, by decide, nofun, fun _ => rfl⟩
    intro v hv
    obtain rfl := List.eq_of_mem_replicate hv
    decide
  · intro i v h
    have hi : i < 64 := (List.getElem?_eq_some_iff.1 h).1
    have h64 : ∀ i : Fin 64, (cleanSums.headerSums.getD i 0).natAbs ≤ 7 * ((191 + 63 - i) / 64) := by decide
    obtain rfl : cleanSums.headerSums.getD i 0 = v := by
      rw [List.getD_eq_getElem?_getD, show cleanSums.headerSums[i]? = some v from h]; rfl
    exact h64 ⟨i, hi⟩
  · intro v hv
    obtain rfl := List.eq_of_mem_replicate hv
    decide

theorem witness_StepKeepsUnconfiguredQuiet :
    ({ fresh with pending := [.csnFall] } : State).QuietUnconfigured
      ∧ fresh.station.state = .unconfigured ∧ ∃ t, step { fresh with pending := [.csnFall] } = .next t :=
  ⟨⟨fun _ => rfl, fun _ => rfl, fun _ => rfl, fun _ => ⟨rfl, rfl, rfl, rfl⟩, fun _ => ⟨rfl, rfl, rfl, rfl, rfl⟩,
    fun _ => rfl, fun _ => ⟨rfl, rfl⟩⟩, rfl, _, rfl⟩

end Sys2Proof.Tests
end

section
/-! PROOFS. The codes of a header: bytes and bits, the packed fields, the acceptance of R7 (O52). -/

namespace Sys2Proof.Machine

/-! ## Bits and bytes -/

/-- A byte read back from its bits on the line (R5, R10). -/
theorem byteOfBits_lsbFirst (b : Byte) : byteOfBits (lsbFirst b) = b := by
  revert b; decide

/-- The bytes of a string of bits are those that were written into it, whatever follows (R5, R10). -/
theorem bytesOfBits_flatMap_lsbFirst (bytes : List Byte) (rest : List Bool) :
    bytesOfBits bytes.length (bytes.flatMap lsbFirst ++ rest) = bytes := by
  induction bytes with
  | nil => rfl
  | cons b bytes ih =>
    have h8 : (lsbFirst b).length = 8 := rfl
    simp only [List.length_cons, List.flatMap_cons, List.append_assoc, bytesOfBits]
    rw [List.take_left' h8, List.drop_left' h8, byteOfBits_lsbFirst, ih]

theorem length_flatMap_lsbFirst (bytes : List Byte) : (bytes.flatMap lsbFirst).length = 8 * bytes.length := by
  induction bytes with
  | nil => rfl
  | cons b bytes ih => simp [List.flatMap_cons, ih, lsbFirst]; omega

/-- Bit `i` of a byte, as the line carries the byte (R5). -/
theorem getElem?_lsbFirst (b : Byte) (i : Nat) (hi : i < 8) : (lsbFirst b)[i]? = some (b.getLsbD i) := by
  interval_cases i <;> rfl

/-- Bit `i` on the line is bit i mod 8 of byte i div 8 (R5). -/
theorem getElem?_flatMap_lsbFirst (bytes : List Byte) (i : Nat) (hi : i < 8 * bytes.length) :
    (bytes.flatMap lsbFirst)[i]? = some (headerBit bytes i) := by
  induction bytes generalizing i with
  | nil => simp at hi
  | cons b bytes ih =>
    have h8 : (lsbFirst b).length = 8 := rfl
    rw [List.flatMap_cons]
    by_cases h : i < 8
    · rw [List.getElem?_append_left (by omega), getElem?_lsbFirst b i h, headerBit,
        Nat.div_eq_of_lt h, Nat.mod_eq_of_lt h]
      rfl
    · obtain ⟨j, rfl⟩ : ∃ j, i = j + 8 := ⟨i - 8, by omega⟩
      rw [List.getElem?_append_right (by omega), h8, Nat.add_sub_cancel,
        ih j (by simp only [List.length_cons] at hi; omega), headerBit, headerBit,
        Nat.add_div_right j (by omega), Nat.add_mod_right, List.getD_cons_succ]

/-! ## The header -/

theorem validId_iff (b : Byte) : validId b = true ↔ 1 ≤ b.toNat ∧ b.toNat ≤ 254 := by
  have hb := b.isLt
  simp only [validId, Bool.and_eq_true, bne_iff_ne, ne_eq, BitVec.toNat_eq]
  simp
  omega

/-- The code of a kind names that kind, and no other code does (R180). -/
theorem ofCode_eq_some_iff (c : BitVec 2) (k : DestKind) : DestKind.ofCode c = some k ↔ c = k.code := by
  revert c; cases k <;> decide

/-- A header in range: what R2 and R7 let a header carry. -/
structure Header.InRange (h : Header) : Prop where
  origin : 1 ≤ h.key.origin.toNat ∧ h.key.origin.toNat ≤ 254
  relayer : 1 ≤ h.relayer.toNat ∧ h.relayer.toNat ≤ 254
  length : 1 ≤ h.identity.length ∧ h.identity.length ≤ 48
  hops : h.hops ≤ 7

/-! ### The packed bytes and their fields (R180) -/

theorem sequenceHighSession_session (k : Key) : (sequenceHighSession k).extractLsb' 4 4 = k.session :=
  BitVec.extractLsb'_append_eq_left

theorem sequenceHighSession_sequence (k : Key) :
    (sequenceHighSession k).extractLsb' 0 4 ++ sequenceLow k = k.sequence := by
  have hHigh : (sequenceHighSession k).extractLsb' 0 4 = k.sequence.extractLsb' 8 4 :=
    BitVec.extractLsb'_append_eq_right
  rw [hHigh]
  exact BitVec.extractLsb'_append_extractLsb' (w := 4) (len := 8)

theorem lengthKind_kind (i : Identity) : (lengthKind i).extractLsb' 6 2 = i.kind.code :=
  BitVec.extractLsb'_append_eq_left

theorem lengthKind_length (i : Identity) (h : i.length ≤ 48) : ((lengthKind i).extractLsb' 0 6).toNat = i.length := by
  have hLow : (lengthKind i).extractLsb' 0 6 = BitVec.ofNat 6 i.length := BitVec.extractLsb'_append_eq_right
  rw [hLow, BitVec.toNat_ofNat]
  omega

theorem hopsUrgentVersion_version (i : Identity) (hops : Nat) : (hopsUrgentVersion i hops).extractLsb' 4 4 = 3#4 :=
  BitVec.extractLsb'_append_eq_left

/-- The low half of byte 6 holds urgent and hops left (R180). -/
theorem hopsUrgentVersion_low (i : Identity) (hops : Nat) :
    (hopsUrgentVersion i hops).extractLsb' 0 4 = BitVec.ofBool i.urgent ++ BitVec.ofNat 3 hops :=
  BitVec.extractLsb'_append_eq_right

theorem hopsUrgentVersion_urgent (i : Identity) (hops : Nat) : (hopsUrgentVersion i hops).getLsbD 3 = i.urgent := by
  have hBit : (hopsUrgentVersion i hops).getLsbD 3 = ((hopsUrgentVersion i hops).extractLsb' 0 4).getLsbD 3 := by
    simp
  rw [hBit, hopsUrgentVersion_low]
  exact (BitVec.getLsbD_append (x := BitVec.ofBool i.urgent) (y := BitVec.ofNat 3 hops) (i := 3)).trans (by simp)

theorem hopsUrgentVersion_hops (i : Identity) (hops : Nat) (h : hops ≤ 7) :
    ((hopsUrgentVersion i hops).extractLsb' 0 3).toNat = hops := by
  have hLow : (hopsUrgentVersion i hops).extractLsb' 0 3 = BitVec.ofNat 3 hops :=
    (BitVec.extractLsb'_append_eq_of_add_le (w := 4) (by decide)).trans BitVec.extractLsb'_append_eq_right
  rw [hLow, BitVec.toNat_ofNat]
  omega

/-- The two bytes of sequence and session, put together again from their fields (R180). -/
theorem sequence_session_of_bytes (origin b3 b4 : Byte) :
    sequenceLow ⟨origin, b4.extractLsb' 4 4, b4.extractLsb' 0 4 ++ b3⟩ = b3
      ∧ sequenceHighSession ⟨origin, b4.extractLsb' 4 4, b4.extractLsb' 0 4 ++ b3⟩ = b4 := by
  refine ⟨BitVec.extractLsb'_append_eq_right, ?_⟩
  have hHigh : (b4.extractLsb' 0 4 ++ b3).extractLsb' 8 4 = b4.extractLsb' 0 4 := BitVec.extractLsb'_append_eq_left
  show b4.extractLsb' 4 4 ++ (b4.extractLsb' 0 4 ++ b3).extractLsb' 8 4 = b4
  rw [hHigh]
  exact BitVec.extractLsb'_append_extractLsb' (w := 4) (len := 4)

/-- The byte of length and kind, put together again from its fields (R180). -/
theorem lengthKind_of_byte (b1 b5 : Byte) (kind : DestKind) (urgent : Bool)
    (h : b5.extractLsb' 6 2 = kind.code) : lengthKind ⟨b1, kind, urgent, (b5.extractLsb' 0 6).toNat⟩ = b5 := by
  show kind.code ++ BitVec.ofNat 6 (b5.extractLsb' 0 6).toNat = b5
  rw [← h, BitVec.ofNat_toNat, BitVec.setWidth_eq]
  exact BitVec.extractLsb'_append_extractLsb' (w := 2) (len := 6)

/-- The byte of hops left, urgent and version, put together again from its fields (R180). -/
theorem hopsUrgentVersion_of_byte (b1 b6 : Byte) (kind : DestKind) (length : Nat) (h : b6.extractLsb' 4 4 = 3#4) :
    hopsUrgentVersion ⟨b1, kind, b6.getLsbD 3, length⟩ (b6.extractLsb' 0 3).toNat = b6 := by
  have hBit : BitVec.ofBool (b6.getLsbD 3) = b6.extractLsb' 3 1 := by
    ext i hi
    obtain rfl : i = 0 := by omega
    simp
  show 3#4 ++ (BitVec.ofBool (b6.getLsbD 3) ++ BitVec.ofNat 3 (b6.extractLsb' 0 3).toNat) = b6
  rw [← h, hBit, BitVec.ofNat_toNat, BitVec.setWidth_eq,
    BitVec.extractLsb'_append_extractLsb'_eq_extractLsb' (w := 8) (start₁ := 0) (len₁ := 3) rfl]
  exact BitVec.extractLsb'_append_extractLsb' (w := 4) (len := 4)

/-- Hops left cleared in byte 6 (R8). -/
theorem hopsUrgentVersion_mask (i : Identity) (hops : Nat) :
    hopsUrgentVersion i hops &&& 0xF8#8 = hopsUrgentVersion i 0 := by
  have hLow : ∀ (u : Bool) (h : BitVec 3),
      ((3#4 ++ (BitVec.ofBool u ++ h) : Byte) &&& 0xF8#8) = (3#4 ++ (BitVec.ofBool u ++ 0#3) : Byte) := by decide
  exact hLow i.urgent (BitVec.ofNat 3 hops)

/-! ### Acceptance (R7) -/

/-- The header that eight bytes give where they are accepted. -/
def headerOf (b0 b1 b2 b3 b4 b5 b6 : Byte) (kind : DestKind) : Header where
  key := ⟨b0, b4.extractLsb' 4 4, b4.extractLsb' 0 4 ++ b3⟩
  identity := ⟨b1, kind, b6.getLsbD 3, (b5.extractLsb' 0 6).toNat⟩
  relayer := b2
  hops := (b6.extractLsb' 0 3).toNat

/-- What acceptance asks of eight bytes, condition by condition (R7). -/
theorem acceptHeader_eq_some_iff (bytes : List Byte) (h : Header) :
    acceptHeader bytes = some h ↔
      ∃ b0 b1 b2 b3 b4 b5 b6 kind,
        bytes = [b0, b1, b2, b3, b4, b5, b6, crc8 [b0, b1, b2, b3, b4, b5, b6]]
        ∧ h = headerOf b0 b1 b2 b3 b4 b5 b6 kind ∧ b5.extractLsb' 6 2 = kind.code ∧ b6.extractLsb' 4 4 = 3#4
        ∧ (1 ≤ h.identity.length ∧ h.identity.length ≤ 48) ∧ validId b0 = true ∧ validId b2 = true := by
  constructor
  · intro ha
    unfold acceptHeader at ha
    split at ha
    · next b0 b1 b2 b3 b4 b5 b6 b7 =>
      dsimp only at ha
      split at ha
      · cases ha
      · next kind hk =>
        split at ha
        · next hc =>
          obtain ⟨hcrc, hversion, hmin, hmax, horigin, hrelayer⟩ := hc
          obtain rfl := Option.some.inj ha
          exact ⟨b0, b1, b2, b3, b4, b5, b6, kind, by rw [hcrc], rfl, (ofCode_eq_some_iff _ _).1 hk, hversion,
            ⟨hmin, hmax⟩, horigin, hrelayer⟩
        · cases ha
    · cases ha
  · rintro ⟨b0, b1, b2, b3, b4, b5, b6, kind, rfl, rfl, hkind, hversion, ⟨hmin, hmax⟩, horigin, hrelayer⟩
    have hk := (ofCode_eq_some_iff _ _).2 hkind
    simp only [acceptHeader, hk]
    rw [if_pos ⟨trivial, hversion, hmin, hmax, horigin, hrelayer⟩]
    rfl

/-- A header in range is accepted as it was sent (R2, R7, R180). -/
theorem acceptHeader_headerBytes {h : Header} (hr : h.InRange) : acceptHeader (headerBytes h) = some h := by
  obtain ⟨⟨origin, session, sequence⟩, ⟨destination, kind, urgent, length⟩, relayer, hops⟩ := h
  have hlength := lengthKind_length ⟨destination, kind, urgent, length⟩ hr.length.2
  refine (acceptHeader_eq_some_iff _ _).2 ⟨origin, destination, relayer, _, _, _, _, kind, rfl, ?_,
    lengthKind_kind _, hopsUrgentVersion_version _ _, hr.length, (validId_iff _).2 hr.origin,
    (validId_iff _).2 hr.relayer⟩
  rw [headerOf, sequenceHighSession_session, sequenceHighSession_sequence, hopsUrgentVersion_urgent,
    hopsUrgentVersion_hops _ _ hr.hops, hlength]

/-- Accepted bytes are those of the header they give (R7, R180). -/
theorem headerBytes_of_accepted {bytes : List Byte} {h : Header} (ha : acceptHeader bytes = some h) :
    headerBytes h = bytes := by
  obtain ⟨b0, b1, b2, b3, b4, b5, b6, kind, rfl, rfl, hkind, hversion, -⟩ := (acceptHeader_eq_some_iff _ _).1 ha
  obtain ⟨h3, h4⟩ := sequence_session_of_bytes b0 b3 b4
  have hfields : headerFields (headerOf b0 b1 b2 b3 b4 b5 b6 kind) = [b0, b1, b2, b3, b4, b5, b6] := by
    simp only [headerFields, headerOf, h3, h4, lengthKind_of_byte _ _ _ _ hkind,
      hopsUrgentVersion_of_byte _ _ _ _ hversion]
  rw [headerBytes, hfields]
  rfl

/-- An accepted header is in range (R7). -/
theorem inRange_of_accepted {bytes : List Byte} {h : Header} (ha : acceptHeader bytes = some h) : h.InRange := by
  obtain ⟨b0, b1, b2, b3, b4, b5, b6, kind, -, rfl, -, -, hlength, horigin, hrelayer⟩ :=
    (acceptHeader_eq_some_iff _ _).1 ha
  have hhops := (b6.extractLsb' 0 3).isLt
  exact ⟨(validId_iff _).1 horigin, (validId_iff _).1 hrelayer, hlength, by show (b6.extractLsb' 0 3).toNat ≤ 7; omega⟩

/-- Settles O52: sent and accepted headers agree, and the identity block is cut from a header's own bytes. -/
theorem headerCodesAgree : Obligations.HeaderCodesAgree := by
  refine ⟨?_, ?_, ?_⟩
  · intro h ho1 ho2 hr1 hr2 hl1 hl2 hh
    exact acceptHeader_headerBytes ⟨⟨ho1, ho2⟩, ⟨hr1, hr2⟩, ⟨hl1, hl2⟩, hh⟩
  · intro bytes h ha
    obtain ⟨⟨ho1, ho2⟩, ⟨hr1, hr2⟩, ⟨hl1, hl2⟩, hh⟩ := inRange_of_accepted ha
    exact ⟨headerBytes_of_accepted ha, ho1, ho2, hr1, hr2, hl1, hl2, hh⟩
  · intro h
    exact ⟨_, _, _, _, _, _, _, _, rfl, by rw [hopsUrgentVersion_mask]; rfl⟩

end Sys2Proof.Machine
end

section
/-! PROOFS. The body code: the encoder and the formula of R138, the interleaving of R12 (O31). -/

namespace Sys2Proof.Machine

/-! ## The encoder (R11) and the formula of R138 -/

theorem length_encodeFrom (state : Nat) (bits : List Bool) : (encodeFrom state bits).length = 2 * bits.length := by
  induction bits generalizing state with
  | nil => rfl
  | cons x bits ih => simp only [encodeFrom, List.length_cons, ih]; omega

/-- The encoder's state once it has taken a string of bits (R11). -/
def stateAfter (state : Nat) (bits : List Bool) : Nat := bits.foldl nextState state

/-- Coded symbol k is made by step k div 2, from the state that the bits before it have left (R11). -/
theorem getElem?_encodeFrom (bits : List Bool) (state k : Nat) (hk : k < 2 * bits.length) :
    (encodeFrom state bits)[k]? = some (
      if k % 2 = 0 then outZero (stateAfter state (bits.take (k / 2))) (bits.getD (k / 2) false)
      else outOne (stateAfter state (bits.take (k / 2))) (bits.getD (k / 2) false)) := by
  induction bits generalizing state k with
  | nil => simp at hk
  | cons x bits ih =>
    match k with
    | 0 => rfl
    | 1 => rfl
    | k + 2 =>
      have hk' : k < 2 * bits.length := by simp only [List.length_cons] at hk; omega
      have hdiv : (k + 2) / 2 = k / 2 + 1 := by omega
      rw [hdiv, Nat.add_mod_right]
      exact ih (nextState state x) k hk'

/-- The latest input bit stands at bit 0 of the state, and the older ones move up (R11). -/
theorem testBit_nextState (state : Nat) (x : Bool) (d : Nat) (hd : d < 4) :
    (nextState state x).testBit d = if d = 0 then x else state.testBit (d - 1) := by
  have hbit : 2 * state + x.toNat = Nat.bit x state := by cases x <;> simp [Nat.bit]
  have hmod : nextState state x = Nat.bit x state % 2 ^ 4 := congrArg (· % 16) hbit
  rw [hmod, Nat.testBit_mod_two_pow, decide_eq_true hd, Bool.true_and]
  cases d with
  | zero => exact Nat.testBit_bit_zero ..
  | succ d => exact Nat.testBit_bit_succ ..

/-- Bit d of the state before step t is the input bit of d + 1 steps back, 0 before the first (R11, R138). -/
theorem testBit_stateAfter_take (bits : List Bool) (t d : Nat) (ht : t ≤ bits.length) (hd : d < 4) :
    (stateAfter 0 (bits.take t)).testBit d = bitBack bits t (d + 1) := by
  induction t generalizing d with
  | zero => simp [stateAfter, bitBack]
  | succ t ih =>
    have htake : bits.take (t + 1) = bits.take t ++ [bits.getD t false] := by
      rw [List.take_add_one, List.getD_eq_getElem?_getD, List.getElem?_eq_getElem (by omega)]
      rfl
    have hstep : stateAfter 0 (bits.take (t + 1)) = nextState (stateAfter 0 (bits.take t)) (bits.getD t false) := by
      rw [htake, stateAfter, List.foldl_append]
      rfl
    rw [hstep, testBit_nextState _ _ _ hd]
    cases d with
    | zero => simp [bitBack]
    | succ d =>
      rw [if_neg (by omega), Nat.add_sub_cancel, ih d (by omega) (by omega), bitBack, bitBack]
      simp only [Nat.add_sub_add_right, Nat.add_le_add_iff_right]

/-- The encoder of R11 from state 0 gives the symbols of R138's formula. -/
theorem getElem?_encodeBits (bits : List Bool) (k : Nat) (hk : k < 2 * bits.length) :
    (encodeBits bits)[k]? = some (codedSymbol bits k) := by
  have ht : k / 2 ≤ bits.length := by omega
  have hstate := testBit_stateAfter_take bits (k / 2)
  have hnow : bitBack bits (k / 2) 0 = bits.getD (k / 2) false := by simp [bitBack]
  rw [encodeBits, getElem?_encodeFrom bits 0 k hk, codedSymbol, outZero, outOne,
    hstate 0 ht (by omega), hstate 1 ht (by omega), hstate 2 ht (by omega), hstate 3 ht (by omega), hnow]

/-! ## The interleaving (R12) -/

/-- Coded position and line position undo each other, and stay within N = 8M (R12). -/
theorem codedPosition_lt_and_linePosition (m j : Nat) (h : j < 8 * m) :
    codedPosition m j < 8 * m ∧ linePosition m (codedPosition m j) = j := by
  have hq : j / m < 8 := Nat.div_lt_of_lt_mul (by omega)
  have hr : j % m < m := Nat.mod_lt _ (by omega)
  have hj : m * (j / m) + j % m = j := Nat.div_add_mod j m
  rw [linePosition, codedPosition]
  generalize j / m = q at *
  generalize j % m = r at *
  have hmod : (8 * r + q) % 8 = q := by omega
  have hdiv : (8 * r + q) / 8 = r := by omega
  rw [hmod, hdiv, Nat.mul_comm q m]
  exact ⟨by omega, hj⟩

theorem length_informationBits (payload : List Byte) (check : BodyCheck) :
    (informationBits payload check).length = 8 * payload.length + 20 := by
  rw [informationBits, List.length_append, length_flatMap_lsbFirst, List.length_append, List.length_replicate]
  simp only [List.length_cons, List.length_nil]
  omega

/-- Settles O31: the interleaving is inverted place by place, and the encoder gives R138's formula. -/
theorem streamCarriesTheEncodedBody : Obligations.StreamCarriesTheEncodedBody := by
  intro c j hj
  have hM : 16 * c.payload.length + 40 = 8 * (2 * c.payload.length + 5) := by omega
  obtain ⟨hlt, hline⟩ := codedPosition_lt_and_linePosition (2 * c.payload.length + 5) j (by omega)
  refine ⟨by rw [hM]; exact hlt, hline, ?_⟩
  refine getElem?_encodeBits _ _ ?_
  rw [length_informationBits]
  exact hlt.trans_eq (by omega)

end Sys2Proof.Machine
end

section
/-! PROOFS. The trellis decode of a snapshot with the signs of the symbols sent: the path sent leads at every step (O36). -/

namespace Sys2Proof.Machine

/-! ## The trellis decode (R13, R14) -/

/-- The sent symbol's sign gives its value the highest score, above that of the other symbol (R13). -/
theorem signOf_score (v : Int) (b b' : Bool) (h : 0 < v * signOf b) :
    v * signOf b' ≤ v * signOf b ∧ (b' ≠ b → v * signOf b' < v * signOf b) := by
  cases b <;> cases b' <;> simp [signOf] at h ⊢ <;> omega

/-- Two inputs from one state give different first symbols (R11). -/
theorem outZero_ne {state : Nat} {x y : Bool} (h : x ≠ y) : outZero state x ≠ outZero state y := by
  cases x <;> cases y <;> simp_all [outZero]

theorem nextState_lt (state : Nat) (x : Bool) : nextState state x < 16 := Nat.mod_lt _ (by decide)

/-- The two states that lead into a state, and the input that does (R13). -/
theorem nextState_eq_iff (u s : Nat) (x : Bool) (hu : u < 16) :
    nextState u x = s ↔ s < 16 ∧ x = (s % 2 == 1) ∧ (u = s / 2 ∨ u = s / 2 + 8) := by
  unfold nextState
  constructor
  · rintro rfl
    refine ⟨Nat.mod_lt _ (by decide), ?_, by have := Bool.toNat_le x; omega⟩
    cases x <;> simp
  · rintro ⟨hs, rfl, hpred⟩
    have hbit : (s % 2 == 1).toNat = s % 2 := by
      rcases Nat.mod_two_eq_zero_or_one s with h | h <;> rw [h] <;> rfl
    rw [hbit]
    omega

/-- What survives of two extensions is one of them, and no better one is dropped (R13). -/
theorem surviving_eq_some {low high : Option Survivor} {q : Survivor} (h : surviving low high = some q) :
    low = some q ∨ high = some q := by
  unfold surviving at h
  split at h
  · split at h
    · exact .inr h
    · exact .inl h
  · exact .inl h
  · exact .inr h

theorem surviving_of_lt_left {p : Survivor} {high : Option Survivor} (h : ∀ q, high = some q → q.total < p.total) :
    surviving (some p) high = some p := by
  cases high with
  | none => rfl
  | some q => exact if_neg (by have := h q rfl; omega)

theorem surviving_of_lt_right {p : Survivor} {low : Option Survivor} (h : ∀ q, low = some q → q.total < p.total) :
    surviving low (some p) = some p := by
  cases low with
  | none => rfl
  | some q => exact if_pos (h q rfl)

/-- One path stands at a state, and every path kept at another state has a lower total. -/
structure Leads (paths : List (Option Survivor)) (state : Nat) (p : Survivor) : Prop where
  kept : paths.getD state none = some p
  below : ∀ s q, s ≠ state → paths.getD s none = some q → q.total < p.total

theorem getD_trellisStep (a0 a1 : Int) (paths : List (Option Survivor)) (s : Nat) (hs : s < 16) :
    (trellisStep a0 a1 paths).getD s none =
      surviving (extendPath a0 a1 (s / 2) (s % 2 == 1) (paths.getD (s / 2) none))
        (extendPath a0 a1 (s / 2 + 8) (s % 2 == 1) (paths.getD (s / 2 + 8) none)) := by
  simp [trellisStep, List.getD_eq_getElem?_getD, hs]

theorem getD_trellisStep_ge (a0 a1 : Int) (paths : List (Option Survivor)) (s : Nat) (hs : 16 ≤ s) :
    (trellisStep a0 a1 paths).getD s none = none := by
  simp [trellisStep, List.getD_eq_getElem?_getD, Nat.not_lt.2 hs]

/-- A path extended, and the path it extends (R13). -/
theorem extendPath_eq_some {a0 a1 : Int} {u : Nat} {x : Bool} {o : Option Survivor} {q : Survivor}
    (h : extendPath a0 a1 u x o = some q) : ∃ p, o = some p ∧ q.total = p.total + branchScore a0 a1 u x := by
  obtain ⟨p, hp, rfl⟩ := Option.map_eq_some_iff.1 h
  exact ⟨p, hp, rfl⟩

section
variable {a0 a1 : Int} {paths : List (Option Survivor)} {state : Nat} {p : Survivor} {x : Bool}

/-- The branch that was sent scores highest of all branches of its step. -/
theorem branchScore_le (h0 : 0 < a0 * signOf (outZero state x)) (h1 : 0 < a1 * signOf (outOne state x))
    (u : Nat) (y : Bool) : branchScore a0 a1 u y ≤ branchScore a0 a1 state x := by
  have := (signOf_score a0 _ (outZero u y) h0).1
  have := (signOf_score a1 _ (outOne u y) h1).1
  unfold branchScore
  omega

/-- An extension other than the one that was sent stays below it. -/
theorem extension_below (hl : Leads paths state p) (h0 : 0 < a0 * signOf (outZero state x))
    (h1 : 0 < a1 * signOf (outOne state x)) {u : Nat} {y : Bool} (hne : u ≠ state ∨ y ≠ x) {q : Survivor}
    (hq : extendPath a0 a1 u y (paths.getD u none) = some q) :
    q.total < p.total + branchScore a0 a1 state x := by
  obtain ⟨r, hr, htotal⟩ := extendPath_eq_some hq
  have hle := branchScore_le h0 h1 u y
  by_cases hu : u = state
  · subst hu
    have hy : y ≠ x := hne.resolve_left fun h => h rfl
    obtain rfl : p = r := Option.some.inj (hl.kept.symm.trans hr)
    have := (signOf_score a0 _ (outZero u y) h0).2 (outZero_ne hy)
    have := (signOf_score a1 _ (outOne u y) h1).1
    unfold branchScore at htotal ⊢
    omega
  · have := hl.below u r hu hr
    omega

/-- The path sent leads on after a step whose two values have the signs of the symbols sent. -/
theorem leads_trellisStep (hs : state < 16) (hl : Leads paths state p) (h0 : 0 < a0 * signOf (outZero state x))
    (h1 : 0 < a1 * signOf (outOne state x)) :
    Leads (trellisStep a0 a1 paths) (nextState state x) ⟨p.total + branchScore a0 a1 state x, x :: p.path⟩ := by
  constructor
  · obtain ⟨hlt, hx, hpred⟩ := (nextState_eq_iff state _ x hs).1 rfl
    rw [getD_trellisStep _ _ _ _ hlt, ← hx]
    have hsent : extendPath a0 a1 state x (paths.getD state none)
        = some ⟨p.total + branchScore a0 a1 state x, x :: p.path⟩ := by rw [hl.kept]; rfl
    rcases hpred with hu | hu
    · rw [← hu, hsent]
      exact surviving_of_lt_left fun q hq => extension_below hl h0 h1 (.inl (by omega)) hq
    · rw [← hu, hsent]
      exact surviving_of_lt_right fun q hq => extension_below hl h0 h1 (.inl (by omega)) hq
  · intro s q hne hq
    by_cases hs16 : s < 16
    · rw [getD_trellisStep _ _ _ _ hs16] at hq
      have hother : ∀ u, u = s / 2 ∨ u = s / 2 + 8 → u ≠ state ∨ (s % 2 == 1) ≠ x := by
        intro u hu
        by_contra hc
        obtain ⟨rfl, hx⟩ : u = state ∧ (s % 2 == 1) = x := by simpa [not_or] using hc
        exact hne ((nextState_eq_iff u s x hs).2 ⟨hs16, hx.symm, hu⟩).symm
      rcases surviving_eq_some hq with hlow | hhigh
      · exact extension_below hl h0 h1 (hother _ (.inl rfl)) hlow
      · exact extension_below hl h0 h1 (hother _ (.inr rfl)) hhigh
    · rw [getD_trellisStep_ge _ _ _ _ (by omega)] at hq
      cases hq

end

/-- Every value has the sign of its symbol. -/
def SignsAgree (values : List Int) (symbols : List Bool) : Prop :=
  List.Forall₂ (fun v b => 0 < v * signOf b) values symbols

/-- The path sent leads after all steps of a snapshot with the signs of the symbols sent. -/
theorem leads_trellis (bits : List Bool) : ∀ (values : List Int) (paths : List (Option Survivor)) (state : Nat)
    (p : Survivor), state < 16 → Leads paths state p → SignsAgree values (encodeFrom state bits) →
    ∃ total, Leads (trellis values paths) (stateAfter state bits) ⟨total, bits.reverse ++ p.path⟩ := by
  induction bits with
  | nil =>
    intro values paths state p _ hl hv
    cases hv
    exact ⟨p.total, hl⟩
  | cons x bits ih =>
    intro values paths state p hs hl hv
    obtain _ | ⟨h0, _ | ⟨h1, hrest⟩⟩ := hv
    obtain ⟨total, ht⟩ := ih _ _ _ _ (nextState_lt state x) (leads_trellisStep hs hl h0 h1) hrest
    refine ⟨total, ?_⟩
    rw [List.reverse_cons, List.append_assoc]
    exact ht

theorem leads_trellisStart : Leads trellisStart 0 ⟨0, []⟩ := by
  refine ⟨rfl, fun s q hs hq => ?_⟩
  obtain ⟨s, rfl⟩ : ∃ r, s = r + 1 := ⟨s - 1, by omega⟩
  rw [trellisStart, List.getD_cons_succ, List.getD_eq_getElem?_getD, List.getElem?_replicate] at hq
  split at hq <;> cases hq

/-- Four zero bits bring the encoder back to state 0 (R10, R11). -/
theorem stateAfter_append_zeros (state : Nat) (bits : List Bool) :
    stateAfter state (bits ++ List.replicate 4 false) = 0 := by
  rw [stateAfter, List.foldl_append]
  show nextState (nextState (nextState (nextState _ false) false) false) false = 0
  simp only [nextState, Bool.toNat_false]
  omega

/-- A snapshot with the signs of a coded sequence that ends in state 0 decodes to its bits (R13). -/
theorem decodedPath_of_signsAgree {values : List Int} {bits : List Bool} (hend : stateAfter 0 bits = 0)
    (hv : SignsAgree values (encodeBits bits)) : decodedPath values = bits := by
  obtain ⟨total, hl⟩ := leads_trellis bits values trellisStart 0 ⟨0, []⟩ (by decide) leads_trellisStart hv
  rw [hend] at hl
  rw [decodedPath, hl.kept]
  simp

/-- The payload and the check of an information sequence, read back (R10, R14). -/
theorem decodeBody_of_decodedPath {values : List Int} {payload : List Byte} {check : BodyCheck}
    (h : decodedPath values = informationBits payload check) : decodeBody payload.length values = (payload, check) := by
  have hbytes : bytesOfBits (payload.length + 2) (decodedPath values)
      = payload ++ [check.extractLsb' 8 8, check.extractLsb' 0 8] := by
    have hread := bytesOfBits_flatMap_lsbFirst (payload ++ [check.extractLsb' 8 8, check.extractLsb' 0 8])
      (List.replicate 4 false)
    rw [List.length_append] at hread
    rw [h, informationBits]
    exact hread
  have hcheck : check.extractLsb' 8 8 ++ check.extractLsb' 0 8 = check :=
    BitVec.extractLsb'_append_extractLsb' (w := 8) (len := 8)
  have htake : (payload ++ [check.extractLsb' 8 8, check.extractLsb' 0 8]).take payload.length = payload :=
    List.take_left
  rw [decodeBody, hbytes]
  rw [htake, List.getD_append_right _ _ _ _ le_rfl, List.getD_append_right _ _ _ _ (Nat.le_add_right _ 1),
    Nat.sub_self, Nat.add_sub_cancel_left]
  exact congrArg (Prod.mk payload) hcheck

/-- A snapshot whose values have the signs of the symbols sent (R13). -/
theorem signsAgree_of_getElem? {values : List Int} {symbols : List Bool} (hlen : values.length = symbols.length)
    (h : ∀ (k : Nat) (v : Int) (b : Bool), values[k]? = some v → symbols[k]? = some b →
      (b = true → 0 < v) ∧ (b = false → v < 0)) : SignsAgree values symbols := by
  refine List.forall₂_iff_get.2 ⟨hlen, fun k hv hb => ?_⟩
  obtain ⟨hone, hzero⟩ := h k _ _ (List.getElem?_eq_getElem hv) (List.getElem?_eq_getElem hb)
  simp only [List.get_eq_getElem]
  cases hbk : symbols[k] with
  | false => simpa [signOf] using hzero hbk
  | true => simpa [signOf] using hone hbk

/-- Settles O36: the sent path leads at every step, so it is the path decoded, and its check fits its payload. -/
theorem cleanSnapshotDecodes : Obligations.CleanSnapshotDecodes := by
  intro payload block snapshot hlen hsigns
  have hcoded : (encodeBits (informationBits payload (bodyCheck block payload))).length = 16 * payload.length + 40 := by
    rw [encodeBits, length_encodeFrom, length_informationBits]
    omega
  have hagree := signsAgree_of_getElem? (hlen.trans hcoded.symm) hsigns
  have hpath := decodedPath_of_signsAgree (stateAfter_append_zeros 0 _) hagree
  rw [decodeOutcome, decodeBody_of_decodedPath hpath]
  exact if_pos rfl

end Sys2Proof.Machine
end

section
/-! PROOFS. The airtime of a copy: its elements along a chain (O30). -/

namespace Sys2Proof.Machine

/-! ## The airtime (R16) -/

/-- With an element just begun, its own ticks and then those of the elements after it are still to come (R29). -/
theorem remaining_succ_zero (c : TxCopy) (n : Nat) (e : Element) :
    c.remaining (n + 1) e 0 = c.elementTicks e + c.remaining n (c.nextElement e) 0 := by
  cases e with
  | finished => cases n <;> rfl
  | _ => simp [TxCopy.remaining]

/-- Along a chain of elements, the ticks of each in turn. -/
theorem remaining_chain (c : TxCopy) (f : Nat → Element) (m k : Nat) (h : ∀ i < k, c.nextElement (f i) = f (i + 1)) :
    c.remaining (k + m) (f 0) 0 = (∑ i ∈ Finset.range k, c.elementTicks (f i)) + c.remaining m (f k) 0 := by
  induction k generalizing m with
  | zero => simp
  | succ k ih =>
    have hk := ih (m + 1) fun i hi => h i (by omega)
    rw [Finset.sum_range_succ, Nat.add_assoc k 1 m, Nat.add_comm 1 m, hk, remaining_succ_zero, h k (by omega)]
    omega

/-- The ticks of `n` symbols: 2 U each, and one U more for each that carries a 1 (R15, R28). -/
theorem sum_symbolTicks (p : Nat → Bool) (n : Nat) :
    (∑ i ∈ Finset.range n, (symbolMark (p i) + 16)) = 32 * n + 16 * (List.range n).countP p := by
  induction n with
  | zero => simp
  | succ n ih =>
    rw [Finset.sum_range_succ, ih, List.range_succ, List.countP_append]
    cases hp : p n <;> simp [symbolMark, hp] <;> omega

/-- The 192 header symbols, from the first to the body's begin. -/
def headerChain (i : Nat) : Element := if i < 192 then .headerSymbol i else .bodySymbol 0

/-- The body symbols of a copy, from the first to the end marker. -/
def bodyChain (c : TxCopy) (i : Nat) : Element := if i < codedLength c.payload.length then .bodySymbol i else .endMarker

theorem nextElement_headerChain (c : TxCopy) (i : Nat) (h : i < 192) :
    c.nextElement (headerChain i) = headerChain (i + 1) := by
  simp [headerChain, h, TxCopy.nextElement, Config.headerSymbols]

theorem nextElement_bodyChain (c : TxCopy) (i : Nat) (h : i < codedLength c.payload.length) :
    c.nextElement (bodyChain c i) = bodyChain c (i + 1) := by
  simp [bodyChain, h, TxCopy.nextElement]

theorem sum_headerChain (c : TxCopy) :
    (∑ i ∈ Finset.range 192, c.elementTicks (headerChain i)) = 32 * 192 + 16 * (List.range 192).countP c.headerValue := by
  rw [← sum_symbolTicks]
  refine Finset.sum_congr rfl fun i hi => ?_
  rw [headerChain, if_pos (Finset.mem_range.1 hi)]
  rfl

theorem sum_bodyChain (c : TxCopy) :
    (∑ i ∈ Finset.range (codedLength c.payload.length), c.elementTicks (bodyChain c i))
      = 32 * codedLength c.payload.length + 16 * (List.range (codedLength c.payload.length)).countP c.bodyValue := by
  rw [← sum_symbolTicks]
  refine Finset.sum_congr rfl fun i hi => ?_
  rw [bodyChain, if_pos (Finset.mem_range.1 hi)]
  rfl

/-- From the first body symbol on: the body and the end marker. -/
theorem remaining_body (c : TxCopy) :
    c.remaining (codedLength c.payload.length + 2) (.bodySymbol 0) 0
      = 32 * codedLength c.payload.length + 16 * (List.range (codedLength c.payload.length)).countP c.bodyValue + 48 := by
  have hpos : 0 < codedLength c.payload.length := by unfold codedLength; omega
  have hchain := remaining_chain c (bodyChain c) 2 (codedLength c.payload.length) (nextElement_bodyChain c)
  rw [sum_bodyChain] at hchain
  rw [bodyChain, if_pos hpos, bodyChain, if_neg (lt_irrefl _)] at hchain
  exact hchain

/-- From the first header symbol on: the header, then the body and the end marker. -/
theorem remaining_header (c : TxCopy) :
    c.remaining (192 + (codedLength c.payload.length + 2)) (.headerSymbol 0) 0
      = 32 * 192 + 16 * (List.range 192).countP c.headerValue
        + c.remaining (codedLength c.payload.length + 2) (.bodySymbol 0) 0 := by
  have hchain := remaining_chain c headerChain (codedLength c.payload.length + 2) 192 (nextElement_headerChain c)
  rw [sum_headerChain] at hchain
  exact hchain

/-- Settles O30: the start marker, then the header, the body and the end marker, each along its chain. -/
theorem airtimeOfACopy : Obligations.AirtimeOfACopy := by
  intro c
  have hbound : c.elementBound = 192 + (codedLength c.payload.length + 2) + 1 := by
    unfold TxCopy.elementBound codedLength; omega
  have hstart : c.elementTicks .startMarker = 80 := rfl
  have hN : 16 * c.payload.length + 40 = codedLength c.payload.length := rfl
  rw [TxCopy.airtime, hbound, remaining_succ_zero, hstart]
  show 80 + c.remaining _ (.headerSymbol 0) 0 = 16 * (472 + 32 * c.payload.length
    + ((List.range 192).countP c.headerValue + (List.range (16 * c.payload.length + 40)).countP c.bodyValue))
  rw [remaining_header, remaining_body, hN]
  unfold codedLength
  omega

end Sys2Proof.Machine
end

section
/-! PROOFS. FALLING_EDGE with a symbol of a copy: the header decided and a body symbol stored (O14, O15). -/

namespace Sys2Proof.Machine

/-! ## FALLING_EDGE as a line event -/

@[simp] theorem afterFall_counters (n : BitVec 8) (s : State) : (afterFall n s).counters = s.counters := by
  simp [afterFall]

@[simp] theorem afterFall_assembler (n : BitVec 8) (s : State) : (afterFall n s).assembler = s.assembler := by
  simp [afterFall]

@[simp] theorem afterFall_table (n : BitVec 8) (s : State) : (afterFall n s).table = s.table := by
  simp [afterFall]

/-- An accepted falling edge hands its line event to the Copy Assembler (R20, R23). -/
theorem fallingEdge_eq_assemble (n : BitVec 8) (s : State) (hp : s.line.phase = .lit) :
    fallingEdge n.toNat (setDemodIn false s) = assemble (fallEvent n s) (afterFall n s) := by
  have hp' : (setDemodIn false s).line.phase = .lit := hp
  rw [fallingEdge, if_pos hp']
  rfl

theorem exec_fallingEdge_lit (n : BitVec 8) (s : State) (hh : s.station.held = false) (hp : s.line.phase = .lit) :
    exec (.fallingEdge n) s = .next (settleAttn (assemble (fallEvent n s) (afterFall n s))) := by
  have hh' : (setDemodIn false s).station.held = false := hh
  show Host.Outcome.next (live _ _) = _
  rw [live_running hh', fallingEdge_eq_assemble n s hp]

/-! ## Symbols of a copy -/

/-- A symbol in phase HEADER (R38). -/
theorem assemble_headerSymbol {ev : LineEvent} {v : Int} {e : Bool} {s : State} (hp : s.assembler.phase = .header)
    (hv : symbolOf ev = some (v, e)) : assemble ev s = headerSymbol v e s := by
  rw [assemble, hp]
  cases ev with
  | dataSymbol k => cases hv; rfl
  | erasure => cases hv; rfl
  | endMarker => cases hv
  | startMarker => cases hv
  | silence => cases hv

/-- A symbol in phase BODY (R43). -/
theorem assemble_bodySymbol {ev : LineEvent} {v : Int} {e : Bool} {s : State} (hp : s.assembler.phase = .body)
    (hv : symbolOf ev = some (v, e)) : assemble ev s = bodySymbol v e s := by
  rw [assemble, hp]
  cases ev with
  | dataSymbol k => cases hv; rfl
  | erasure => cases hv; rfl
  | endMarker => cases hv
  | startMarker => cases hv
  | silence => cases hv

/-! ## The header decided (R6, R39) -/

/-- The 192nd header symbol, whatever the erasure run, with a header that is accepted (R39). -/
theorem headerSymbol_accepted (v : Int) (e : Bool) {s : State} {h : Header} (hsums : s.assembler.headerSums.length = 64)
    (hi : s.assembler.headerIndex = 191) (hd : decideHeader (headerTaken s.assembler v e).headerSums = some h) :
    headerSymbol v e s =
      { s with assembler := { headerTaken s.assembler v e with phase := .body, decided := some h, bodyIndex := 0 } } := by
  have hlast : (headerTaken s.assembler v e).headerIndex = Config.headerSymbols := congrArg (· + 1) hi
  rw [headerSymbol, takeHeaderSymbol_eq _ v e hsums]
  simp only [if_pos hlast, hd]
  rfl

/-- The 192nd header symbol, whatever the erasure run, with a header that is rejected (R39). -/
theorem headerSymbol_rejected (v : Int) (e : Bool) {s : State} (hsums : s.assembler.headerSums.length = 64)
    (hi : s.assembler.headerIndex = 191) (hd : decideHeader (headerTaken s.assembler v e).headerSums = none) :
    headerSymbol v e s = headerLost (headerTaken s.assembler v e) s := by
  have hlast : (headerTaken s.assembler v e).headerIndex = Config.headerSymbols := congrArg (· + 1) hi
  rw [headerSymbol, takeHeaderSymbol_eq _ v e hsums]
  simp only [if_pos hlast, hd]
  rfl

/-- A sum of 0 leaves its bit undecided and rejects the header (R6). -/
theorem decideHeader_of_zero {sums : List Int} (h : 0 ∈ sums) : decideHeader sums = none := by
  have hall : sums.all (fun v => v != 0) = false := List.all_eq_false.2 ⟨0, h, by decide⟩
  rw [decideHeader, decideBits, hall]
  rfl

/-- Sums other than 0 decide the header by the bytes that their signs spell (R5, R6). -/
theorem decideHeader_of_bytes {sums : List Int} {bytes : List Byte} (hlen : sums.length = 64) (h0 : 0 ∉ sums)
    (hbytes : bytes.length = 8)
    (hbits : ∀ i v, sums[i]? = some v → (bytes.getD (i / 8) 0).getLsbD (i % 8) = decide (0 < v)) :
    decideHeader sums = acceptHeader bytes := by
  have hall : sums.all (fun v => v != 0) = true := by
    refine List.all_eq_true.2 fun v hv => ?_
    have hne : v ≠ 0 := fun h => h0 (h ▸ hv)
    simpa using hne
  have hspell : sums.map (fun v => decide (0 < v)) = bytes.flatMap lsbFirst := by
    refine List.ext_getElem? fun i => ?_
    by_cases hi : i < 64
    · rw [getElem?_flatMap_lsbFirst bytes i (by omega), List.getElem?_map, List.getElem?_eq_getElem (by omega)]
      exact congrArg some (hbits i _ (List.getElem?_eq_getElem (by omega))).symm
    · have hbound := length_flatMap_lsbFirst bytes
      rw [List.getElem?_eq_none (by rw [List.length_map]; omega), List.getElem?_eq_none (by omega)]
  have hread : bytesOfBits 8 (bytes.flatMap lsbFirst) = bytes := by
    have := bytesOfBits_flatMap_lsbFirst bytes []
    rwa [List.append_nil, hbytes] at this
  rw [decideHeader, decideBits, hall, if_pos rfl, hspell]
  exact congrArg acceptHeader hread

/-- Settles O14: the last header symbol makes the decision, and the decision is by the signs of the sums. -/
theorem headerDecidedAtLastSymbol : Obligations.HeaderDecidedAtLastSymbol := by
  refine ⟨?_, fun sums hlen => ⟨decideHeader_of_zero, fun h0 bytes => decideHeader_of_bytes hlen h0⟩⟩
  intro n s v e hh hp hphase hsums hindex hv
  have hfall : exec (.fallingEdge n) s = .next (settleAttn (headerSymbol v e (afterFall n s))) := by
    rw [exec_fallingEdge_lit n s hh hp, assemble_headerSymbol (by simpa using hphase) hv]
  have hsums' : (afterFall n s).assembler.headerSums.length = 64 := by rw [afterFall_assembler]; exact hsums
  have hindex' : (afterFall n s).assembler.headerIndex = 191 := by rw [afterFall_assembler]; exact hindex
  refine ⟨fun h hd => ?_, fun hd => ?_⟩
  · rw [hfall, headerSymbol_accepted v e hsums' hindex' (by rw [afterFall_assembler]; exact hd), afterFall_assembler]
  · rw [hfall, headerSymbol_rejected v e hsums' hindex' (by rw [afterFall_assembler]; exact hd), afterFall_assembler]

/-! ## A body symbol stored (R43) -/

/-- A body symbol before the last: stored, and the copy goes on unless an erasure stands at the run's end (R43, R45). -/
theorem bodySymbol_of_lt (v : Int) (e : Bool) (s : State) {h : Header} (hd : s.assembler.decided = some h)
    (hi : s.assembler.bodyIndex + 1 < codedLength h.identity.length) :
    bodySymbol v e s =
      if e = true ∧ erasuresAfter s.assembler.erasureRun e = 24 then
        copyEnded .hunt h
          { s with
            counters := s.counters.bump .copiesTruncated, assembler := bodyTaken h.identity.length s.assembler v e }
      else { s with assembler := bodyTaken h.identity.length s.assembler v e } := by
  simp only [bodySymbol, hd, takeBodySymbol_eq]
  have hgo : ¬ (bodyTaken h.identity.length s.assembler v e).bodyIndex = codedLength h.identity.length :=
    Nat.ne_of_lt hi
  rw [if_neg hgo]
  refine if_congr Iff.rfl ?_ rfl
  exact closeCopy_eq_copyEnded .hunt _ h hd

/-- Settles O15: a body symbol that completes no copy is stored, and log 12's erasure ends the copy. -/
theorem bodySymbolsAreStored : Obligations.BodySymbolsAreStored := by
  intro n s h v e hh hp hphase hd hv hindex
  have hfall : exec (.fallingEdge n) s = .next (settleAttn (bodySymbol v e (afterFall n s))) := by
    rw [exec_fallingEdge_lit n s hh hp, assemble_bodySymbol (by simpa using hphase) hv]
  rw [hfall, bodySymbol_of_lt v e _ (by simpa using hd) (by rw [afterFall_assembler]; exact hindex),
    afterFall_assembler]
  refine ⟨fun hgo => ?_, fun he hrun => ?_⟩
  · have hnot : ¬ (e = true ∧ erasuresAfter s.assembler.erasureRun e = 24) := by
      rintro ⟨rfl, hrun⟩
      have hlt : s.assembler.erasureRun + 1 < 24 := hgo.resolve_left (by decide)
      rw [erasuresAfter, if_pos rfl] at hrun
      omega
    rw [if_neg hnot]
  · have hend : e = true ∧ erasuresAfter s.assembler.erasureRun e = 24 := by
      refine ⟨he, ?_⟩
      rw [erasuresAfter, if_pos he, hrun]
      rfl
    rw [if_pos hend, afterFall_counters]

end Sys2Proof.Machine
end

section
/-! PROOFS. The ranges of the Copy Buffer, and what a symbol does to them (O59). -/

namespace Sys2Proof.Machine

/-! ## The Copy Buffer -/

/-- The ranges of the Copy Buffer that hold in every phase (R36, log 20): those of `Assembler.Bounded` that speak neither
of the phase nor of the decided header. -/
structure Assembler.BufferBounded (a : Assembler) : Prop where
  sums : a.headerSums.length = 64
  symbols : ∀ (i : Nat) (v : Int), a.headerSums[i]? = some v → v.natAbs ≤ 7 * ((a.headerIndex + 63 - i) / 64)
  headerIndex : a.headerIndex ≤ 192
  body : a.body.length = 808 ∧ ∀ v ∈ a.body, -7 ≤ v ∧ v ≤ 7
  bodyIndex : a.bodyIndex ≤ 808
  erasureRun : a.erasureRun ≤ 24

namespace Assembler

theorem Bounded.buffer {a : Assembler} (h : a.Bounded) : a.BufferBounded :=
  ⟨h.sums.1, h.symbols, h.headerIndex.1, h.body, h.bodyIndex.1, h.erasureRun⟩

theorem Bounded.inRange {a : Assembler} (ha : a.Bounded) {h : Header} (hd : a.decided = some h) : h.InRange := by
  obtain ⟨ho1, ho2, hr1, hr2, hl1, hl2, hh⟩ := ha.decided h hd
  exact ⟨⟨ho1, ho2⟩, ⟨hr1, hr2⟩, ⟨hl1, hl2⟩, hh⟩

/-- No header is decided outside BODY. -/
theorem Bounded.decided_none {a : Assembler} (ha : a.Bounded) (hp : a.phase ≠ .body) : a.decided = none := by
  by_contra hd
  exact hp (ha.present.1 hd)

/-- A bit has three symbols, of 7 at most, so its sum stays within 21 (R5, R36). -/
theorem BufferBounded.sum_le {a : Assembler} (h : a.BufferBounded) : ∀ v ∈ a.headerSums, -21 ≤ v ∧ v ≤ 21 := by
  intro v hv
  obtain ⟨i, hi⟩ := List.getElem?_of_mem hv
  have hsum := h.symbols i v hi
  have hindex := h.headerIndex
  omega

/-- Outside HEADER and BODY the buffer's ranges are all there is to hold. -/
theorem BufferBounded.resting {a : Assembler} (h : a.BufferBounded) (hd : a.decided = none)
    (hp : a.phase = .hunt ∨ a.phase = .tail) : a.Bounded where
  sums := ⟨h.sums, h.sum_le⟩
  symbols := h.symbols
  headerIndex := ⟨h.headerIndex, fun hh => by rcases hp with hp | hp <;> rw [hp] at hh <;> cases hh⟩
  decided := fun x hx => by rw [hd] at hx; cases hx
  present := by rw [hd]; rcases hp with hp | hp <;> rw [hp] <;> decide
  body := h.body
  bodyIndex := ⟨h.bodyIndex, fun x hx => by rw [hd] at hx; cases hx⟩
  erasureRun := h.erasureRun

/-- In HEADER the index is below 192 as well. -/
theorem BufferBounded.inHeader {a : Assembler} (h : a.BufferBounded) (hd : a.decided = none) (hp : a.phase = .header)
    (hi : a.headerIndex < 192) : a.Bounded where
  sums := ⟨h.sums, h.sum_le⟩
  symbols := h.symbols
  headerIndex := ⟨h.headerIndex, fun _ => hi⟩
  decided := fun x hx => by rw [hd] at hx; cases hx
  present := by rw [hd, hp]; decide
  body := h.body
  bodyIndex := ⟨h.bodyIndex, fun x hx => by rw [hd] at hx; cases hx⟩
  erasureRun := h.erasureRun

/-- In BODY the decided header is in range and body symbols are still to come. -/
theorem BufferBounded.inBody {a : Assembler} (ha : a.BufferBounded) {h : Header} (hd : a.decided = some h)
    (hp : a.phase = .body) (hr : h.InRange) (hi : a.bodyIndex < codedLength h.identity.length) : a.Bounded where
  sums := ⟨ha.sums, ha.sum_le⟩
  symbols := ha.symbols
  headerIndex := ⟨ha.headerIndex, fun hh => by rw [hp] at hh; cases hh⟩
  decided := fun x hx => by
    obtain rfl : h = x := Option.some.inj (hd.symm.trans hx)
    exact ⟨hr.origin.1, hr.origin.2, hr.relayer.1, hr.relayer.2, hr.length.1, hr.length.2, hr.hops⟩
  present := by rw [hd, hp]; simp
  body := ha.body
  bodyIndex := ⟨ha.bodyIndex, fun x hx => by
    obtain rfl : h = x := Option.some.inj (hd.symm.trans hx)
    exact hi⟩
  erasureRun := ha.erasureRun

/-- The cleared Copy Buffer (R36, R37). -/
theorem bufferBounded_reset : Assembler.reset.BufferBounded where
  sums := List.length_replicate
  symbols := fun i v hv => by
    obtain rfl : v = 0 := List.eq_of_mem_replicate (List.mem_of_getElem? hv)
    exact Nat.zero_le _
  headerIndex := by decide
  body := ⟨List.length_replicate, fun v hv => by
    obtain rfl : v = 0 := List.eq_of_mem_replicate hv
    decide⟩
  bodyIndex := by decide
  erasureRun := by decide

theorem bounded_reset : Assembler.reset.Bounded := bufferBounded_reset.resting rfl (.inl rfl)

theorem bounded_begin : Assembler.begin.Bounded := by
  have hb : Assembler.begin.BufferBounded := { bufferBounded_reset with }
  exact hb.inHeader rfl rfl (by decide)

end Assembler

/-! ## Symbols -/

theorem softValue_le (t : Nat) : softValue t ≤ 7 := by
  unfold softValue
  repeat' split
  all_goals decide

/-- Every symbol the line hands over has a confidence from -7 to +7 (R22). -/
theorem classifyMark_confidence {t : Nat} {v : Int} {e : Bool} (h : symbolOf (classifyMark t) = some (v, e)) :
    -7 ≤ v ∧ v ≤ 7 := by
  have hsoft := softValue_le t
  unfold classifyMark at h
  split at h
  · cases h; decide
  · split at h
    · cases h; omega
    · split at h
      · cases h
      · split at h
        · cases h
        · cases h; decide

theorem erasuresAfter_le (run : Nat) (e : Bool) : erasuresAfter run e ≤ 24 := by
  unfold erasuresAfter
  split
  · exact Nat.min_le_left _ _
  · decide

namespace Assembler

/-- One more header symbol: its bit's sum has had one more pass, the other sums none (R38). -/
theorem BufferBounded.headerTaken {a : Assembler} (h : a.BufferBounded) {v : Int} (hv : -7 ≤ v ∧ v ≤ 7) (e : Bool)
    (hi : a.headerIndex < 192) : (headerTaken a v e).BufferBounded where
  sums := by rw [Machine.headerTaken, List.length_set]; exact h.sums
  symbols := by
    intro i w hw
    show w.natAbs ≤ 7 * ((a.headerIndex + 1 + 63 - i) / 64)
    have hset : (a.headerSums.set (a.headerIndex % 64) (a.headerSums.getD (a.headerIndex % 64) 0 + v))[i]? = some w := hw
    rw [List.getElem?_set] at hset
    by_cases hpass : a.headerIndex % 64 = i
    · have hlt : i < a.headerSums.length := by rw [h.sums]; omega
      have hold := h.symbols i _ (List.getElem?_eq_getElem hlt)
      rw [if_pos hpass, hpass, if_pos hlt, List.getD_eq_getElem?_getD, List.getElem?_eq_getElem hlt] at hset
      have hw' : a.headerSums[i] + v = w := Option.some.inj hset
      omega
    · rw [if_neg hpass] at hset
      have hold := h.symbols i w hset
      omega
  headerIndex := by show a.headerIndex + 1 ≤ 192; omega
  body := h.body
  bodyIndex := h.bodyIndex
  erasureRun := erasuresAfter_le _ _

/-- One more body symbol, stored in the Copy Buffer (R43). -/
theorem BufferBounded.bodyTaken {a : Assembler} (h : a.BufferBounded) (l : Nat) {v : Int} (hv : -7 ≤ v ∧ v ≤ 7)
    (e : Bool) (hi : a.bodyIndex < 808) : (bodyTaken l a v e).BufferBounded where
  sums := h.sums
  symbols := h.symbols
  headerIndex := h.headerIndex
  body := by
    refine ⟨by rw [Machine.bodyTaken, List.length_set]; exact h.body.1, fun w hw => ?_⟩
    rcases List.mem_or_eq_of_mem_set hw with hw | rfl
    · exact h.body.2 w hw
    · exact hv
  bodyIndex := by show a.bodyIndex + 1 ≤ 808; omega
  erasureRun := erasuresAfter_le _ _

end Assembler

end Sys2Proof.Machine
end

section
/-! PROOFS. The ranges of the entries, and what each operation on the Combining Table does to them (O59). -/

namespace Sys2Proof.Machine

/-! ## Entries -/

/-- A copy record as the Copy Assembler hands it on: a header in range, a confidence for each coded position (R48). -/
structure CopyRecord.Bounded (r : CopyRecord) : Prop where
  header : r.header.InRange
  positions : r.confidences.length = codedLength r.header.identity.length
  confidences : ∀ v ∈ r.confidences, -7 ≤ v ∧ v ≤ 7

/-- The record formed from a Copy Buffer in its ranges (R48). -/
theorem Assembler.BufferBounded.record {a : Assembler} (ha : a.BufferBounded) (hr : ∀ h, a.decided = some h → h.InRange)
    {r : CopyRecord} (hrec : a.record = some r) : r.Bounded := by
  obtain ⟨h, hd, rfl⟩ := Option.map_eq_some_iff.1 hrec
  have hlength := (hr h hd).length
  refine ⟨hr h hd, ?_, fun v hv => ha.body.2 v (List.mem_of_mem_take hv)⟩
  show (a.body.take (codedLength h.identity.length)).length = codedLength h.identity.length
  rw [List.length_take, ha.body.1]
  unfold codedLength
  omega

theorem addSaturated_bounded (a c : Int) : -63 ≤ addSaturated a c ∧ addSaturated a c ≤ 63 := by
  unfold addSaturated
  omega

theorem mem_mergeConfidences {acc conf : List Int} {v : Int} (h : v ∈ mergeConfidences acc conf) :
    -63 ≤ v ∧ v ≤ 63 := by
  obtain ⟨i, hi, rfl⟩ := List.getElem_of_mem h
  simp only [mergeConfidences, List.getElem_zipWith]
  exact addSaturated_bounded _ _

theorem mem_addRelayer {l : List Byte} {r x : Byte} (h : x ∈ addRelayer l r) : x ∈ l ∨ x = r := by
  unfold addRelayer at h
  split at h
  · exact .inl h
  · simpa using h

/-- The relayer list stays within 4 ids, each once (R59). -/
theorem addRelayer_bounded {l : List Byte} (r : Byte) (h : 1 ≤ l.length ∧ l.length ≤ 4 ∧ l.Nodup) :
    1 ≤ (addRelayer l r).length ∧ (addRelayer l r).length ≤ 4 ∧ (addRelayer l r).Nodup := by
  obtain ⟨hmin, hmax, hnodup⟩ := h
  unfold addRelayer
  split
  · exact ⟨hmin, hmax, hnodup⟩
  · next hroom =>
    obtain ⟨hnew, hlen⟩ := not_or.1 hroom
    have hnew' : r ∉ l := by simpa using hnew
    have hlen' : l.length < 4 := Nat.lt_of_not_le hlen
    refine ⟨by rw [List.length_append]; omega, by rw [List.length_append]; exact hlen', ?_⟩
    exact hnodup.append (List.nodup_singleton r) (by simpa using hnew')

namespace Entry

/-- The entry of a NEW copy (R58). -/
theorem bounded_newEntry {r : CopyRecord} (h : r.Bounded) (deadline : Millis) : (newEntry r deadline).Bounded where
  origin := h.header.origin
  length := h.header.length
  positions := h.positions
  accumulators := fun v hv => by have := h.confidences v hv; omega
  combined := ⟨le_rfl, by show 1 ≤ 15; decide⟩
  heard := ⟨le_rfl, by show 1 ≤ 255; decide⟩
  relayers := ⟨le_rfl, by show 1 ≤ 4; decide, List.nodup_singleton _⟩
  relayerIds := fun x hx => by rw [List.mem_singleton.1 hx]; exact h.header.relayer
  hops := h.header.hops
  waiting := fun _ => ⟨rfl, rfl⟩
  queued := fun _ => rfl

/-- The bookkeeping of a MATCH copy (R59). -/
theorem Bounded.hear {e : Entry} (he : e.Bounded) {h : Header} (hr : h.InRange) : (e.hear h).Bounded where
  origin := he.origin
  length := he.length
  positions := he.positions
  accumulators := he.accumulators
  combined := he.combined
  heard := by
    have := he.heard
    show e.combined ≤ min 255 (e.heard + 1) ∧ min 255 (e.heard + 1) ≤ 255
    omega
  relayers := addRelayer_bounded _ he.relayers
  relayerIds := fun x hx => by
    rcases mem_addRelayer hx with hx | rfl
    · exact he.relayerIds x hx
    · exact hr.relayer
  hops := max_le he.hops hr.hops
  waiting := he.waiting
  queued := he.queued

/-- The merge of a copy's confidences, where fewer copies are merged than heard, and fewer than 15 (R60). -/
theorem Bounded.merge {e : Entry} (he : e.Bounded) {conf : List Int} (hc : conf.length = codedLength e.identity.length)
    (hm : e.combined < 15) (hh : e.combined < e.heard) : (e.merge conf).Bounded where
  origin := he.origin
  length := he.length
  positions := by
    show (mergeConfidences e.accumulators conf).length = _
    rw [mergeConfidences, List.length_zipWith, he.positions, hc, Nat.min_self]
    rfl
  accumulators := fun v hv => mem_mergeConfidences hv
  combined := ⟨Nat.le_add_left _ _, hm⟩
  heard := ⟨hh, he.heard.2⟩
  relayers := he.relayers
  relayerIds := he.relayerIds
  hops := he.hops
  waiting := fun hw => by
    have hst : e.state = .waiting := hw
    refine ⟨?_, (he.waiting hst).2⟩
    show (e.recheck || e.state == .decoding) = false
    rw [(he.waiting hst).1, hst]
    rfl
  queued := fun hq => by
    have hst : e.state = .queued := hq
    show (e.recheck || e.state == .decoding) = false
    rw [he.queued hst, hst]
    rfl

/-- An entry whose state and marks change, to what its new state allows. -/
theorem Bounded.mark {e : Entry} (he : e.Bounded) (st : EntryState) (recheck final : Bool)
    (hw : st = .waiting → recheck = false ∧ final = false) (hq : st = .queued → recheck = false) :
    ({ e with state := st, recheck := recheck, final := final } : Entry).Bounded :=
  { he with waiting := hw, queued := hq }

end Entry

/-! ## The Combining Table -/

/-- Every occupied entry of a table is in its ranges. -/
def TableBounded (table : List (Option Entry)) : Prop := ∀ e, some e ∈ table → e.Bounded

theorem entries_bounded_iff (s : State) : (∀ i e, entryAt s i = some e → e.Bounded) ↔ TableBounded s.table := by
  constructor
  · intro h e he
    obtain ⟨i, hi⟩ := List.getElem?_of_mem he
    exact h i e (entryAt_of_table hi)
  · intro h i e he
    exact h e (List.mem_of_getElem? (table_of_entryAt he))

namespace TableBounded

theorem entry {s : State} (h : TableBounded s.table) {i : Nat} {e : Entry} (he : entryAt s i = some e) : e.Bounded :=
  (entries_bounded_iff s).2 h i e he

theorem set_some {table : List (Option Entry)} (h : TableBounded table) (i : Nat) {e : Entry} (he : e.Bounded) :
    TableBounded (table.set i (some e)) := by
  intro f hf
  rcases List.mem_or_eq_of_mem_set hf with hf | hf
  · exact h f hf
  · obtain rfl := Option.some.inj hf
    exact he

theorem set_none {table : List (Option Entry)} (h : TableBounded table) (i : Nat) : TableBounded (table.set i none) := by
  intro f hf
  rcases List.mem_or_eq_of_mem_set hf with hf | hf
  · exact h f hf
  · cases hf

theorem empty : TableBounded freeTable := fun _ h => by cases List.eq_of_mem_replicate h

end TableBounded

section
variable {s : State} (hT : TableBounded s.table)
include hT

/-- The coverage gate (R61, R62). -/
theorem tableBounded_gate (i : Nat) : TableBounded (gate i s).table := by
  unfold gate
  split
  · next e he =>
    have heb := hT.entry he
    split
    · next hc => exact hT.set_some i (heb.mark .queued _ _ nofun fun _ => (heb.waiting hc.1).1)
    · exact hT
  · exact hT

/-- The eviction of an entry (R57). -/
theorem tableBounded_evict : TableBounded (evict s).table := by
  unfold evict
  split
  · exact hT.set_none _
  · exact hT

/-- A NEW copy (R56, R58). -/
theorem tableBounded_openEntry {r : CopyRecord} (hr : r.Bounded) : TableBounded (openEntry r s).table := by
  have hroom : TableBounded (if s.table.all Option.isSome then evict s else s).table := by
    split
    · exact tableBounded_evict hT
    · exact hT
  exact tableBounded_gate (hroom.set_some _ (Entry.bounded_newEntry hr _)) _

/-- A MATCH copy, of the identity of its entry (R59 to R61). -/
theorem tableBounded_matchCopy {i : Nat} {r : CopyRecord} (hr : r.Bounded)
    (hid : (entryAt s i).map Entry.identity = some r.header.identity) : TableBounded (matchCopy i r s).table := by
  obtain ⟨e, he, hide⟩ := Option.map_eq_some_iff.1 hid
  have hheard := (hT.entry he).hear hr.header
  simp only [matchCopy, he]
  split
  · next hm =>
    have hm' : e.combined < 15 := hm
    refine tableBounded_gate (hT.set_some i (hheard.merge ?_ hm' ?_)) i
    · exact hr.positions.trans (congrArg (fun d : Identity => codedLength d.length) hide.symm)
    · have := (hT.entry he).heard
      show e.combined < min 255 (e.heard + 1)
      omega
  · exact hT.set_some i hheard

/-- A failed decode settles its entry (R69). -/
theorem tableBounded_settleFailure (i : Nat) : TableBounded (settleFailure i s).table := by
  unfold settleFailure
  dsimp only
  split
  · exact hT
  · next e he =>
    have heb : e.Bounded := hT.entry (i := i) he
    split
    · exact hT.set_none i
    · next hf =>
      split
      · exact hT.set_some i (heb.mark .queued false _ nofun fun _ => rfl)
      · exact hT.set_some i (heb.mark .waiting false _ (fun _ => ⟨rfl, by simpa using hf⟩) nofun)

/-- The deadline of an entry (R64 to R66). -/
theorem tableBounded_entryDeadline (i : Nat) : TableBounded (entryDeadline i s).table := by
  unfold entryDeadline
  split
  · exact hT
  · next e he =>
    have heb := hT.entry he
    split
    · exact hT
    · dsimp only
      split
      · simp only [expireEntry, count_table, putEntry_table, runToMilli_table]
        exact hT.set_none i
      · next hw =>
        simp only [putEntry_table, runToMilli_table]
        exact hT.set_some i (heb.mark _ _ true (fun h => absurd h hw) heb.queued)

/-- The Decoder's take (R63). -/
theorem tableBounded_decoderTake : TableBounded (decoderTake s).table := by
  unfold decoderTake
  split
  · split
    · exact hT
    · next e he => exact hT.set_some _ ((hT.entry he).mark .decoding _ _ nofun nofun)
  · exact hT

/-- A decode that succeeds frees its entry (R68). -/
theorem tableBounded_decodeSuccess (d : Decode) (payload : List Byte) :
    TableBounded (decodeSuccess d payload s).table := by
  unfold decodeSuccess
  dsimp only
  split
  · simp only [endDecode_table, writeSlot_table]
    exact hT
  · simp only [endDecode_table, deliver_table, writeSlot_table]
    exact hT.set_none _

/-- The completion of a decode (R82). -/
theorem tableBounded_decodeCompletion : TableBounded (decodeCompletion s).table := by
  unfold decodeCompletion
  split
  · exact hT
  · next d _ =>
    have hrun : TableBounded (runToPeriod d.completion s).table := by rw [runToPeriod_table]; exact hT
    dsimp only
    split
    · exact tableBounded_decodeSuccess hrun d _
    · exact tableBounded_settleFailure (by rw [endDecode_table]; exact hrun) _

/-- A verdict given and acted on (R50). -/
theorem tableBounded_giveVerdict {r : CopyRecord} (hr : r.Bounded) : TableBounded (giveVerdict r s).table := by
  unfold giveVerdict
  cases hv : verdictOf s r.header with
  | echo => exact hT
  | selfConflict => exact hT
  | duplicate => exact hT
  | keyConflict => exact hT
  | matched i =>
    refine tableBounded_matchCopy (s := count .copiesAccepted s) hT hr ?_
    unfold verdictOf at hv
    split at hv
    · split at hv <;> cases hv
    · split at hv
      · cases hv
      · split at hv
        · cases hv
        · split at hv
          · next hid => cases hv; exact hid
          · cases hv
  | new => exact tableBounded_openEntry (s := count .copiesAccepted s) hT hr

end

end Sys2Proof.Machine
end

section
/-! PROOFS. Every command and every REFCLK period keeps the entries and the copy being received in their ranges (O59). -/

namespace Sys2Proof.Machine

/-! ## The copy being received -/

theorem entriesBounded_iff (s : State) : s.EntriesBounded ↔ TableBounded s.table ∧ s.assembler.Bounded :=
  ⟨fun h => ⟨(entries_bounded_iff s).1 h.entries, h.copy⟩, fun h => ⟨(entries_bounded_iff s).2 h.1, h.2⟩⟩

/-- The invariant speaks of the table and the Copy Assembler alone. -/
theorem State.EntriesBounded.congr {s t : State} (h : s.EntriesBounded) (ht : t.table = s.table)
    (ha : t.assembler = s.assembler) : t.EntriesBounded := by
  rw [entriesBounded_iff] at h ⊢
  rwa [ht, ha]

/-- An empty table and a cleared Copy Assembler, as every reset leaves them (R36, R53, R74, R75). -/
theorem entriesBounded_of_cleared {t : State} (ht : t.table = freeTable) (ha : t.assembler = Assembler.reset) :
    t.EntriesBounded := by
  rw [entriesBounded_iff, ht, ha]
  exact ⟨TableBounded.empty, Assembler.bounded_reset⟩

/-- The Copy Assembler replaced by one in its ranges. -/
theorem State.EntriesBounded.setAssembler {s : State} (h : s.EntriesBounded) {a : Assembler} (ha : a.Bounded) :
    (setAssembler a s).EntriesBounded :=
  (entriesBounded_iff _).2 ⟨((entriesBounded_iff s).1 h).1, ha⟩

theorem State.EntriesBounded.setPort {s : State} (h : s.EntriesBounded) (p : Port) : (setPort p s).EntriesBounded :=
  h.congr rfl rfl

/-- A copy ends: its record goes to the table, its buffer stays, its header is gone (R36, R44, R45). -/
theorem entriesBounded_closeCopy {s : State} (hT : TableBounded s.table) (ha : s.assembler.BufferBounded)
    (hr : ∀ h, s.assembler.decided = some h → h.InRange) {next : AssemblerPhase} (hn : next = .hunt ∨ next = .tail) :
    (closeCopy next s).EntriesBounded := by
  have hrest : ({ s.assembler with phase := next, decided := none } : Assembler).Bounded :=
    Assembler.BufferBounded.resting { ha with } rfl hn
  unfold closeCopy
  cases hrec : s.assembler.record with
  | none => exact (entriesBounded_iff _).2 ⟨hT, hrest⟩
  | some r =>
    refine (entriesBounded_iff _).2 ⟨tableBounded_giveVerdict hT (ha.record hr hrec), ?_⟩
    simp only [setAssembler_assembler, giveVerdict_assembler]
    exact hrest

/-- A truncated copy (R45). -/
theorem entriesBounded_truncateCopy {s : State} (hT : TableBounded s.table) (ha : s.assembler.BufferBounded)
    (hr : ∀ h, s.assembler.decided = some h → h.InRange) : (truncateCopy s).EntriesBounded :=
  entriesBounded_closeCopy (s := count .copiesTruncated s) hT ha hr (.inl rfl)

/-- A rejected header (R39 to R42). -/
theorem entriesBounded_rejectHeader {s : State} (hT : TableBounded s.table) (ha : s.assembler.BufferBounded)
    (hd : s.assembler.decided = none) : (rejectHeader s).EntriesBounded :=
  (entriesBounded_iff _).2 ⟨hT, Assembler.BufferBounded.resting { ha with } hd (.inl rfl)⟩

/-- A decided header is in range (R7). -/
theorem inRange_of_decided {sums : List Int} {h : Header} (hd : decideHeader sums = some h) : h.InRange := by
  unfold decideHeader at hd
  split at hd
  · exact inRange_of_accepted hd
  · cases hd

/-- A header symbol (R38, R39, R41). -/
theorem entriesBounded_headerSymbol {s : State} (h : s.EntriesBounded) (hp : s.assembler.phase = .header) {v : Int}
    (hv : -7 ≤ v ∧ v ≤ 7) (e : Bool) : (headerSymbol v e s).EntriesBounded := by
  obtain ⟨hT, hA⟩ := (entriesBounded_iff s).1 h
  have hindex := hA.headerIndex.2 hp
  have hnone : s.assembler.decided = none := hA.decided_none (by rw [hp]; decide)
  have hbuf := hA.buffer.headerTaken hv e hindex
  have hlost : (rejectHeader (setAssembler (headerTaken s.assembler v e) s)).EntriesBounded :=
    entriesBounded_rejectHeader hT hbuf hnone
  rw [headerSymbol, takeHeaderSymbol_eq _ v e hA.sums.1]
  split
  · split
    · next x hx =>
      have hr := inRange_of_decided hx
      have hbuf' : Assembler.BufferBounded
          { headerTaken s.assembler v e with decided := some x, bodyIndex := 0, phase := .body } :=
        { hbuf with bodyIndex := Nat.zero_le _ }
      exact h.setAssembler (hbuf'.inBody rfl rfl hr (by show 0 < 16 * _ + 40; omega))
    · exact hlost
  · next hi =>
    split
    · exact hlost
    · have hlt : (headerTaken s.assembler v e).headerIndex < 192 := by
        have hne : ¬ s.assembler.headerIndex + 1 = 192 := hi
        show s.assembler.headerIndex + 1 < 192
        omega
      exact h.setAssembler (hbuf.inHeader hnone hp hlt)

/-- A body symbol (R43 to R45). -/
theorem entriesBounded_bodySymbol {s : State} (h : s.EntriesBounded) (hp : s.assembler.phase = .body) {v : Int}
    (hv : -7 ≤ v ∧ v ≤ 7) (e : Bool) : (bodySymbol v e s).EntriesBounded := by
  obtain ⟨hT, hA⟩ := (entriesBounded_iff s).1 h
  unfold bodySymbol
  split
  · exact h
  · next x hd =>
    have hr : x.InRange := hA.inRange hd
    have hindex : s.assembler.bodyIndex < 16 * x.identity.length + 40 := hA.bodyIndex.2 x hd
    have hlength := hr.length
    have hbuf := hA.buffer.bodyTaken x.identity.length hv e (by omega)
    have hr' : ∀ y, (bodyTaken x.identity.length s.assembler v e).decided = some y → y.InRange :=
      fun y hy => hA.inRange hy
    rw [takeBodySymbol_eq]
    dsimp only
    split
    · exact entriesBounded_closeCopy (s := setAssembler (bodyTaken x.identity.length s.assembler v e) s) hT hbuf hr' (.inr rfl)
    · next hi =>
      split
      · exact entriesBounded_truncateCopy (s := setAssembler (bodyTaken x.identity.length s.assembler v e) s) hT hbuf hr'
      · have hlt : (bodyTaken x.identity.length s.assembler v e).bodyIndex < codedLength x.identity.length := by
          have hne : ¬ s.assembler.bodyIndex + 1 = 16 * x.identity.length + 40 := hi
          show s.assembler.bodyIndex + 1 < 16 * x.identity.length + 40
          omega
        exact h.setAssembler (hbuf.inBody hd hp hr hlt)

/-- A line event whose confidence, where it is a symbol, is one the line gives (R37 to R47). -/
theorem entriesBounded_assemble {s : State} (h : s.EntriesBounded) {ev : LineEvent}
    (hev : ∀ v e, symbolOf ev = some (v, e) → -7 ≤ v ∧ v ≤ 7) : (assemble ev s).EntriesBounded := by
  obtain ⟨hT, hA⟩ := (entriesBounded_iff s).1 h
  have hbegin : ∀ t : State, t.EntriesBounded → (setAssembler Assembler.begin t).EntriesBounded :=
    fun t ht => ht.setAssembler Assembler.bounded_begin
  cases hp : s.assembler.phase with
  | hunt =>
    rw [assemble, hp]
    cases ev with
    | startMarker => exact hbegin s h
    | _ => exact h
  | header =>
    have hnone : s.assembler.decided = none := hA.decided_none (by rw [hp]; decide)
    have hlost := entriesBounded_rejectHeader hT hA.buffer hnone
    cases hsym : symbolOf ev with
    | some ve =>
      rw [assemble_headerSymbol hp hsym]
      exact entriesBounded_headerSymbol h hp (hev _ _ hsym) _
    | none =>
      rw [assemble, hp]
      cases ev with
      | dataSymbol _ => cases hsym
      | erasure => cases hsym
      | startMarker => exact hbegin _ hlost
      | endMarker => exact hlost
      | silence => exact hlost
  | body =>
    have hcut := entriesBounded_truncateCopy hT hA.buffer fun _ hd => hA.inRange hd
    cases hsym : symbolOf ev with
    | some ve =>
      rw [assemble_bodySymbol hp hsym]
      exact entriesBounded_bodySymbol h hp (hev _ _ hsym) _
    | none =>
      rw [assemble, hp]
      cases ev with
      | dataSymbol _ => cases hsym
      | erasure => cases hsym
      | startMarker => exact hbegin _ hcut
      | endMarker => exact hcut
      | silence => exact hcut
  | tail =>
    have hnone : s.assembler.decided = none := hA.decided_none (by rw [hp]; decide)
    have hhunt : (setAssembler { s.assembler with phase := .hunt } s).EntriesBounded :=
      h.setAssembler (Assembler.BufferBounded.resting { hA.buffer with } hnone (.inl rfl))
    rw [assemble, hp]
    cases ev with
    | dataSymbol _ => exact h
    | erasure => exact h
    | startMarker => exact hbegin s h
    | endMarker => exact hhunt
    | silence => exact hhunt

/-! ## The commands -/

/-- An effect that keeps the invariant keeps it as a command (R170, R178). -/
theorem entriesBounded_live {f : State → State} {s : State} (h : s.EntriesBounded) (hf : (f s).EntriesBounded) :
    (live f s).EntriesBounded := by
  unfold live
  split
  · exact h
  · exact hf.congr rfl rfl

/-- A falling edge (R20). -/
theorem entriesBounded_fallingEdge {s : State} (h : s.EntriesBounded) (n : BitVec 8) :
    (fallingEdge n.toNat (setDemodIn false s)).EntriesBounded := by
  by_cases hp : s.line.phase = .lit
  · rw [fallingEdge_eq_assemble n s hp]
    exact entriesBounded_assemble (h.congr (by simp) (by simp)) fun v e hv => classifyMark_confidence hv
  · have hp' : ¬ (setDemodIn false s).line.phase = .lit := hp
    rw [fallingEdge, if_neg hp']
    exact h.congr rfl rfl

/-- A silence event for the Copy Assembler, before or after the checks of its instant (R24, R118). -/
theorem entriesBounded_endSpace {s : State} (h : s.EntriesBounded) : (endSpace s).EntriesBounded := by
  have hsilent : ∀ t : State, t.EntriesBounded → (assemble .silence t).EntriesBounded :=
    fun t ht => entriesBounded_assemble ht fun _ _ hv => nomatch hv
  unfold endSpace
  split
  · exact hsilent _ (h.congr (by simp) (by simp))
  · exact (hsilent s h).congr (by simp) (by simp)

theorem entriesBounded_silence {s : State} (h : s.EntriesBounded) : (silence s).EntriesBounded := by
  unfold silence
  split
  · dsimp only
    split
    · exact h.congr (by simp) (by simp)
    · exact entriesBounded_endSpace (h.congr (by simp) (by simp))
  · exact h

/-- A request that a configured station takes, or UNCONFIGURED refuses (R175). -/
theorem entriesBounded_whenConfigured {take : State → State} {s : State} (h : s.EntriesBounded)
    (ht : (take s).EntriesBounded) : (whenConfigured take s).EntriesBounded := by
  unfold whenConfigured
  split
  · exact h.congr (by simp) (by simp)
  · exact ht

theorem entriesBounded_restartPart (s : State) : (restartPart s).EntriesBounded := entriesBounded_of_cleared rfl rfl

/-- The takes: a RESTART clears the table and the Copy Assembler, the others leave both (R169). -/
theorem entriesBounded_takeRequest {s : State} (h : s.EntriesBounded) (r : Request) :
    (takeRequest r s).EntriesBounded := by
  cases r with
  | configure p => exact h.congr (takeConfigure_table s p) (takeConfigure_assembler s p)
  | submit p => exact entriesBounded_whenConfigured h (h.congr (by simp) (by simp))
  | collectMessage => exact entriesBounded_whenConfigured h (h.congr (by simp) (by simp))
  | collectReport => exact entriesBounded_whenConfigured h (h.congr (by simp) (by simp))
  | readStatus => exact h.congr (takeReadStatus_table s) (takeReadStatus_assembler s)
  | readCounters c => exact h.congr (takeReadCounters_table s c) (takeReadCounters_assembler s c)
  | clearEvents m => exact entriesBounded_whenConfigured h (h.congr (by simp) (by simp))
  | restart =>
    have hcleared : (answer .ok (restartPart s)).EntriesBounded :=
      (entriesBounded_restartPart s).congr (answer_table _ _) (answer_assembler _ _)
    exact entriesBounded_whenConfigured (take := fun s => answer .ok (restartPart s)) h hcleared
  | malformed bs => exact h.congr (answer_table s _) (answer_assembler s _)

theorem entriesBounded_hostRequest {s : State} (h : s.EntriesBounded) (r : Request) :
    (hostRequest r s).EntriesBounded := by
  unfold hostRequest
  split
  · exact entriesBounded_takeRequest (h.setPort _) r
  · exact h

/-- A complete byte, which may complete a request (R172, R173). -/
theorem entriesBounded_byteComplete {s : State} (h : s.EntriesBounded) (b : Byte) :
    (byteComplete b s).EntriesBounded := by
  unfold byteComplete
  split
  · exact h.congr rfl rfl
  · unfold requestByte
    dsimp only
    split
    · exact entriesBounded_takeRequest (h.setPort _) _
    · exact h.congr rfl rfl
  · exact h.congr (by simp) (by simp)
  · exact h.congr rfl rfl

theorem entriesBounded_resetPart (s : State) : (resetPart s).EntriesBounded := entriesBounded_of_cleared rfl rfl

theorem entriesBounded_rstnReset {s : State} (h : s.EntriesBounded) : (rstnReset s).EntriesBounded := by
  unfold rstnReset
  split
  · exact h.congr rfl rfl
  · exact entriesBounded_resetPart _

theorem entriesBounded_rstnRelease {s : State} (h : s.EntriesBounded) : (rstnRelease s).EntriesBounded := by
  unfold rstnRelease
  dsimp only
  split <;> exact h.congr rfl rfl

/-- Every command keeps the invariant. -/
theorem entriesBounded_exec {s t : State} (h : s.EntriesBounded) (c : Instr) (ht : exec c s = .next t) :
    t.EntriesBounded := by
  cases c with
  | powerOn => cases ht; exact entriesBounded_resetPart s
  | rstnReset => cases ht; exact entriesBounded_rstnReset h
  | rstnRelease => cases ht; exact entriesBounded_rstnRelease h
  | risingEdge =>
    cases ht
    have hpin : (setDemodIn true s).EntriesBounded := h.congr rfl rfl
    exact entriesBounded_live hpin (hpin.congr (by simp) (by simp))
  | fallingEdge n => cases ht; exact entriesBounded_live (h.congr rfl rfl) (entriesBounded_fallingEdge h n)
  | silence => cases ht; exact entriesBounded_live h (entriesBounded_silence h)
  | decoderTake =>
    cases ht
    obtain ⟨hT, hA⟩ := (entriesBounded_iff s).1 h
    exact entriesBounded_live h ((entriesBounded_iff _).2 ⟨tableBounded_decoderTake hT, by simpa using hA⟩)
  | decodeCompletion =>
    cases ht
    obtain ⟨hT, hA⟩ := (entriesBounded_iff s).1 h
    exact entriesBounded_live h ((entriesBounded_iff _).2 ⟨tableBounded_decodeCompletion hT, by simpa using hA⟩)
  | entryDeadline i =>
    cases ht
    obtain ⟨hT, hA⟩ := (entriesBounded_iff s).1 h
    exact entriesBounded_live h ((entriesBounded_iff _).2 ⟨tableBounded_entryDeadline hT i, by simpa using hA⟩)
  | csnFall =>
    cases ht
    have hpin : (setCsn false s).EntriesBounded := h.congr rfl rfl
    refine entriesBounded_live hpin ?_
    split
    · exact hpin.congr (csnFall_table _) (csnFall_assembler _)
    · exact hpin
  | csnRise =>
    cases ht
    have hpin : (setCsn true s).EntriesBounded := h.congr rfl rfl
    exact entriesBounded_live hpin (hpin.congr (csnRise_table _) (csnRise_assembler _))
  | configure _ | submit _ | collectMessage | collectReport | readStatus | readCounters _ | clearEvents _ | restart
  | malformedRequest _ => cases ht; exact entriesBounded_live h (entriesBounded_hostRequest h _)
  | byteComplete b => cases ht; exact entriesBounded_live h (entriesBounded_byteComplete h b)
  | _ => cases ht; exact entriesBounded_live h (h.congr (by simp) (by simp))

/-- One REFCLK period moves pins and timers alone (log 1). -/
theorem entriesBounded_clockPeriod {s : State} (h : s.EntriesBounded) : (clockPeriod s).EntriesBounded := by
  have hrun : (advance 1 (takePins s)).EntriesBounded := h.congr (by simp) (by simp)
  unfold clockPeriod
  dsimp only
  split
  · exact hrun
  · refine State.EntriesBounded.setPort ?_ _
    unfold sampleLine
    split
    · exact hrun
    · exact hrun.congr rfl rfl

/-- Settles O59: a command keeps the ranges, and so does a REFCLK period where none is due. -/
theorem stepKeepsEntriesInRange : Obligations.StepKeepsEntriesInRange := by
  intro s t h ht
  unfold step at ht
  split at ht
  · next c rest _ => exact entriesBounded_exec (s := { s with pending := rest }) (h.congr rfl rfl) c ht
  · unfold idleStep at ht
    split at ht
    · next c _ => exact entriesBounded_exec (s := s.chosen) (h.congr rfl rfl) c ht
    · obtain rfl := Host.Outcome.next.inj ht
      exact entriesBounded_clockPeriod h

end Sys2Proof.Machine
end

section
/-! PROOFS. The station state: which commands move it, and an UNCONFIGURED station stays quiet (O60). -/

namespace Sys2Proof.Machine

/-! ## The station state over the commands that let time run -/

section
variable (s : State)

@[simp] theorem risingEdge_station_state : (risingEdge s).station.state = s.station.state := by
  unfold risingEdge; split <;> simp

@[simp] theorem fallingEdge_station_state (n : Nat) : (fallingEdge n s).station.state = s.station.state := by
  unfold fallingEdge; split <;> simp

@[simp] theorem silence_station_state : (silence s).station.state = s.station.state := by
  unfold silence
  split
  · dsimp only; split <;> simp
  · rfl

@[simp] theorem blindingEnd_station_state : (blindingEnd s).station.state = s.station.state := by
  unfold blindingEnd; split <;> simp

@[simp] theorem slotEnd_station_state : (slotEnd s).station.state = s.station.state := by
  unfold slotEnd
  split
  · split <;> simp
  · rfl

@[simp] theorem transmissionComplete_station_state : (transmissionComplete s).station.state = s.station.state := by
  unfold transmissionComplete; split <;> simp

@[simp] theorem decodeCompletion_station_state : (decodeCompletion s).station.state = s.station.state := by
  unfold decodeCompletion
  split
  · rfl
  · dsimp only; split <;> simp

@[simp] theorem entryDeadline_station_state (i : Nat) : (entryDeadline i s).station.state = s.station.state := by
  unfold entryDeadline
  split
  · rfl
  · split
    · rfl
    · dsimp only; split <;> simp

@[simp] theorem relayHoldOffExpiry_station_state (i : Nat) :
    (relayHoldOffExpiry i s).station.state = s.station.state := by
  unfold relayHoldOffExpiry
  split
  · rfl
  · split
    · dsimp only; split <;> simp
    · rfl

@[simp] theorem originHoldOffExpiry_station_state (i : Nat) :
    (originHoldOffExpiry i s).station.state = s.station.state := by
  unfold originHoldOffExpiry
  split
  · rfl
  · split <;> simp

@[simp] theorem echoDeadline_station_state (i : Nat) : (echoDeadline i s).station.state = s.station.state := by
  unfold echoDeadline
  split
  · rfl
  · split <;> simp

@[simp] theorem takeSubmit_station_state (p : SubmitParams) : (takeSubmit p s).station.state = s.station.state := by
  unfold takeSubmit
  split
  · simp
  · split
    · simp [acceptSubmit]
    · simp

@[simp] theorem clockPeriod_station_state : (clockPeriod s).station.state = s.station.state := by
  unfold clockPeriod sampleLine
  dsimp only
  split
  · simp
  · split <;> simp

end

/-! ## A configured station stays configured, but for a reset -/

section
variable {s : State} (hs : s.station.state ≠ .unconfigured)
include hs

theorem configured_listenExpiry : (listenExpiry s).station.state ≠ .unconfigured := by
  unfold listenExpiry
  split
  · exact StationState.noConfusion
  · exact hs

/-- No request takes the configuration back (R160, R169). -/
theorem configured_takeRequest (r : Request) : (takeRequest r s).station.state ≠ .unconfigured := by
  have hgo (take : State → State) : whenConfigured take s = take s := if_neg hs
  cases r with
  | configure p => rw [takeRequest, takeConfigure, if_pos hs, answer_station]; exact hs
  | submit p => rw [takeRequest, hgo, takeSubmit_station_state]; exact hs
  | restart =>
    rw [takeRequest, hgo, answer_station]
    exact StationState.noConfusion
  | collectMessage => rw [takeRequest, hgo, takeCollectMessage_station]; exact hs
  | collectReport => rw [takeRequest, hgo, takeCollectReport_station]; exact hs
  | readStatus => exact hs
  | readCounters c => rw [takeRequest, takeReadCounters_station]; exact hs
  | clearEvents m => rw [takeRequest, hgo, takeClearEvents_station]; exact hs
  | malformed bs => exact hs

theorem configured_hostRequest (r : Request) : (hostRequest r s).station.state ≠ .unconfigured := by
  unfold hostRequest
  split
  · refine configured_takeRequest ?_ r
    exact hs
  · exact hs

theorem configured_byteComplete (b : Byte) : (byteComplete b s).station.state ≠ .unconfigured := by
  unfold byteComplete
  split
  · exact hs
  · unfold requestByte
    dsimp only
    split
    · refine configured_takeRequest ?_ _
      exact hs
    · exact hs
  · rw [responseByte_station]; exact hs
  · exact hs

omit hs in
theorem live_station (f : State → State) (s : State) :
    (live f s).station = if s.station.held then s.station else (f s).station := by
  unfold live
  split <;> rfl

theorem configured_live {f : State → State} (hf : (f s).station.state ≠ .unconfigured) :
    (live f s).station.state ≠ .unconfigured := by
  rw [live_station]
  split
  · exact hs
  · exact hf

/-- Only POWER_ON and RSTN_RESET make a configured station UNCONFIGURED (R159, R170). -/
theorem configured_exec {t : State} {c : Instr} (hp : c ≠ .powerOn) (hr : c ≠ .rstnReset) (ht : exec c s = .next t) :
    t.station.state ≠ .unconfigured := by
  cases c with
  | powerOn => exact absurd rfl hp
  | rstnReset => exact absurd rfl hr
  | rstnRelease =>
    cases ht
    unfold rstnRelease
    dsimp only
    split <;> exact hs
  | listenExpiry => cases ht; exact configured_live hs (configured_listenExpiry hs)
  | configure _ | submit _ | collectMessage | collectReport | readStatus | readCounters _ | clearEvents _ | restart
  | malformedRequest _ => cases ht; exact configured_live hs (configured_hostRequest hs _)
  | byteComplete b => cases ht; exact configured_live hs (configured_byteComplete hs b)
  | csnFall =>
    cases ht
    refine configured_live (s := setCsn false s) hs ?_
    split <;> exact hs
  | risingEdge => cases ht; exact configured_live (s := setDemodIn true s) hs (by simpa using hs)
  | fallingEdge n => cases ht; exact configured_live (s := setDemodIn false s) hs (by simpa using hs)
  | csnRise => cases ht; exact configured_live (s := setCsn true s) hs hs
  | _ => cases ht; exact configured_live hs (by simpa using hs)

end

/-! ## A quiet station -/

/-- What `State.QuietUnconfigured` says of each block, the station state apart. -/
structure State.Quiet (s : State) : Prop where
  config : s.station.config = none
  line : s.line = Line.reset
  assembler : s.assembler = Assembler.reset
  table : s.table = freeTable ∧ s.decodeQueue = [] ∧ s.decoder = none ∧ s.history = []
  stores : s.slots = List.replicate 32 Slot.free ∧ s.inbox = [] ∧ s.relays = List.replicate 15 none
    ∧ s.outbox = [] ∧ s.reports = []
  transmit : s.transmit = ⟨.idle, .busy⟩
  counts : s.counters = Counters.zero ∧ s.flags = ⟨false, false, false, false⟩

theorem quietUnconfigured_iff (s : State) :
    s.QuietUnconfigured ↔ (s.station.state = .unconfigured → s.Quiet) :=
  ⟨fun h hu => ⟨h.config hu, h.line hu, h.assembler hu, h.table hu, h.stores hu, h.transmit hu, h.counts hu⟩,
    fun h => ⟨fun hu => (h hu).config, fun hu => (h hu).line, fun hu => (h hu).assembler, fun hu => (h hu).table,
      fun hu => (h hu).stores, fun hu => (h hu).transmit, fun hu => (h hu).counts⟩⟩

/-- Every reset leaves the part quiet (R170). -/
theorem quiet_resetPart (s : State) : (resetPart s).Quiet :=
  ⟨rfl, rfl, rfl, ⟨rfl, rfl, rfl, rfl⟩, ⟨rfl, rfl, rfl, rfl, rfl⟩, rfl, ⟨rfl, rfl⟩⟩

/-- No listen period runs in UNCONFIGURED (R162). -/
theorem listenExpiry_of_unconfigured {s : State} (hu : s.station.state = .unconfigured) : listenExpiry s = s := by
  simp [listenExpiry, hu]

namespace State.Quiet

variable {s : State} (h : s.Quiet)
include h

/-- The queue, the pins, the count of REFCLK periods and the Host Port are no part of it. -/
theorem congr {t : State} (ht : t =
    { s with
      pending := t.pending, pins := t.pins, inputs := t.inputs, refclk := t.refclk, choiceCount := t.choiceCount
      port := t.port }) : t.Quiet := by
  rw [ht]
  exact ⟨h.config, h.line, h.assembler, h.table, h.stores, h.transmit, h.counts⟩

theorem live {f : State → State} (hf : (f s).Quiet) : (Machine.live f s).Quiet := by
  unfold Machine.live
  split
  · exact h
  · exact hf.congr rfl

theorem live_of_eq {f : State → State} (hf : f s = s) : (Machine.live f s).Quiet := h.live (hf.symm ▸ h)

/-! ### Nothing can happen in the other blocks -/

theorem phase_off : s.line.phase = .off := by rw [h.line]; rfl

theorem controller_idle : s.transmit.controller = .idle := by rw [h.transmit]

theorem entryAt_none (i : Nat) : entryAt s i = none := by
  unfold entryAt
  rw [h.table.1, freeTable, List.getD_eq_getElem?_getD, List.getElem?_replicate]
  split <;> rfl

theorem relayAt_none (i : Nat) : relayAt s i = none := by
  obtain ⟨-, -, hrelays, -, -⟩ := h.stores
  unfold relayAt
  rw [hrelays, List.getD_eq_getElem?_getD, List.getElem?_replicate]
  split <;> rfl

theorem outbox_none (i : Nat) : s.outbox[i]? = none := by
  obtain ⟨-, -, -, houtbox, -⟩ := h.stores
  rw [houtbox]
  rfl

/-- No item is READY, so the arbiter grants none (R127). -/
theorem arbitrate_none : arbitrate s = none := by
  cases hg : arbitrate s with
  | none => rfl
  | some g =>
    have hready := isReady_of_arbitrate s g hg
    cases g with
    | relay i =>
      obtain ⟨r, t, hr, -⟩ := hready
      cases (h.relayAt_none i).symm.trans hr
    | origin i =>
      obtain ⟨o, t, ho, -⟩ := hready
      cases (h.outbox_none i).symm.trans ho

theorem risingEdge_eq : risingEdge s = s := by simp [risingEdge, h.phase_off]

theorem fallingEdge_eq (n : Nat) : fallingEdge n s = s := by simp [fallingEdge, h.phase_off]

theorem silence_eq : silence s = s := by simp [silence, h.phase_off]

theorem blindingEnd_eq : blindingEnd s = s := by simp [blindingEnd, h.phase_off]

theorem slotEnd_eq : slotEnd s = s := by simp [slotEnd, h.controller_idle]

theorem backoffCompletion_eq : backoffCompletion s = s := by simp [backoffCompletion, h.controller_idle]

theorem handOver_eq : handOver s = s := by simp [handOver, h.controller_idle]

theorem transmissionComplete_eq : transmissionComplete s = s := by simp [transmissionComplete, h.controller_idle]

theorem grant_eq : grant s = s := by simp [grant, h.controller_idle, h.arbitrate_none]

theorem decoderTake_eq : decoderTake s = s := by
  obtain ⟨-, hqueue, hdecoder, -⟩ := h.table
  simp [decoderTake, hqueue, hdecoder]

theorem decodeCompletion_eq : decodeCompletion s = s := by
  obtain ⟨-, -, hdecoder, -⟩ := h.table
  simp [decodeCompletion, hdecoder]

theorem entryDeadline_eq (i : Nat) : entryDeadline i s = s := by simp [entryDeadline, h.entryAt_none]

theorem relayHoldOffExpiry_eq (i : Nat) : relayHoldOffExpiry i s = s := by
  simp [relayHoldOffExpiry, h.relayAt_none]

theorem originHoldOffExpiry_eq (i : Nat) : originHoldOffExpiry i s = s := by
  simp [originHoldOffExpiry, h.outbox_none]

theorem echoDeadline_eq (i : Nat) : echoDeadline i s = s := by simp [echoDeadline, h.outbox_none]

/-! ### The Host Port -/

/-- What a final byte commits finds nothing to remove; the counters are 0 already (R104, R156, R167). -/
theorem commitResponse (r : Response) : (commitResponse r s).Quiet := by
  obtain ⟨-, hinbox, -, -, hreports⟩ := h.stores
  unfold Machine.commitResponse
  split
  · exact h
  · simpa [removeMessage, hinbox] using h
  · simpa [hreports] using h
  · exact ⟨h.config, h.line, h.assembler, h.table, h.stores, h.transmit, ⟨rfl, h.counts.2⟩⟩

theorem finishResponse (r : Response) : (finishResponse r s).Quiet :=
  State.Quiet.commitResponse (h.congr rfl) r

theorem clockToEnd (kind : Commit) : (clockToEnd kind s).Quiet := by
  unfold Machine.clockToEnd
  split
  · split
    · exact State.Quiet.finishResponse (h.congr rfl) _
    · exact h
  · exact h

theorem responseByte : (responseByte s).Quiet := by
  unfold Machine.responseByte
  split
  · exact h
  · dsimp only
    split
    · exact State.Quiet.finishResponse (h.congr rfl) _
    · exact h.congr rfl

/-- An UNCONFIGURED station answers a request and does no more, but for an accepted CONFIGURE, which makes it LISTENING
(R161, R175). -/
theorem takeRequest (hu : s.station.state = .unconfigured) (r : Request) : (takeRequest r s).QuietUnconfigured := by
  rw [quietUnconfigured_iff]
  intro ht
  have hno (take : State → State) : whenConfigured take s = answer .notConfigured s := if_pos hu
  have hanswer (st : Status) : (answer st s).Quiet := h.congr rfl
  cases r with
  | configure p =>
    rw [Machine.takeRequest, takeConfigure, if_neg (not_not_intro hu)] at ht ⊢
    split at ht
    · cases ht
    · next hinvalid =>
      rw [if_neg hinvalid]
      exact hanswer _
  | readStatus => exact h.congr rfl
  | readCounters c =>
    rw [Machine.takeRequest, takeReadCounters]
    split
    · exact h.congr rfl
    · split <;> exact h.congr rfl
  | malformed bs => exact hanswer _
  | _ =>
    rw [Machine.takeRequest, hno]
    exact hanswer _

theorem hostRequest (hu : s.station.state = .unconfigured) (r : Request) : (hostRequest r s).QuietUnconfigured := by
  unfold Machine.hostRequest
  split
  · refine State.Quiet.takeRequest (h.congr rfl) ?_ r
    exact hu
  · exact (quietUnconfigured_iff s).2 fun _ => h

theorem byteComplete (hu : s.station.state = .unconfigured) (b : Byte) : (byteComplete b s).QuietUnconfigured := by
  have hport (p : Port) : (Machine.setPort p s).QuietUnconfigured := (quietUnconfigured_iff _).2 fun _ => h.congr rfl
  unfold Machine.byteComplete
  split
  · exact hport _
  · unfold requestByte
    dsimp only
    split
    · refine State.Quiet.takeRequest (h.congr rfl) ?_ _
      exact hu
    · exact hport _
  · exact (quietUnconfigured_iff _).2 fun _ => h.responseByte
  · exact hport _

/-! ### Time -/

/-- No tick base, nothing in the stores: a REFCLK period moves the pins, the count and the millisecond alone (R17). -/
theorem advance (n : Nat) : (advance n s).Quiet := by
  unfold Machine.advance
  split
  · exact h
  · split
    · exact h.congr rfl
    · have hc : controllerAfter (ticksWithin s n) s = .idle := by rw [controllerAfter, h.controller_idle]
      refine ⟨h.config, ?_, h.assembler, h.table, h.stores, ?_, h.counts⟩
      · dsimp only
        rw [hc, ticksWithin, tickPhaseAfter, if_pos h.phase_off, if_pos h.phase_off, h.line]
        rfl
      · dsimp only
        rw [hc, h.transmit]

/-- The edge filter of a receiver that is OFF reads nothing (R18). -/
theorem sampleLine (before : Nat) : (sampleLine before s).Quiet := by
  have hfilter (level : Bool) : s.line.sample level = s.line := by simp [Line.sample, h.phase_off]
  unfold Machine.sampleLine
  split
  · exact h
  · rw [hfilter]
    exact h

theorem clockPeriod : (clockPeriod s).Quiet := by
  have hpins : (takePins s).Quiet := h.congr rfl
  have hrun := hpins.advance 1
  unfold Machine.clockPeriod
  dsimp only
  split
  · exact hrun
  · exact (hrun.sampleLine _).congr rfl

/-! ### RSTn -/

theorem rstnReset : (rstnReset s).Quiet := by
  unfold Machine.rstnReset
  split
  · exact h.congr rfl
  · exact quiet_resetPart _

theorem rstnRelease : (rstnRelease s).Quiet := by
  unfold Machine.rstnRelease
  dsimp only
  split
  · exact ⟨h.config, h.line, h.assembler, h.table, h.stores, h.transmit, h.counts⟩
  · exact h.congr rfl

end State.Quiet

/-! ## Every step -/

/-- A command on a quiet UNCONFIGURED station: a reset, an answer, the end of a response, or nothing. -/
theorem quietUnconfigured_exec_of_quiet {s t : State} (hu : s.station.state = .unconfigured) (h : s.Quiet) (c : Instr)
    (ht : exec c s = .next t) : t.QuietUnconfigured := by
  have hquiet (x : State) (hx : x.Quiet) : x.QuietUnconfigured := (quietUnconfigured_iff x).2 fun _ => hx
  have hlive (f : State → State) (hf : (f s).QuietUnconfigured) : (live f s).QuietUnconfigured := by
    unfold live
    split
    · exact hquiet s h
    · exact (quietUnconfigured_iff _).2 fun ht => ((quietUnconfigured_iff _).1 hf ht).congr rfl
  cases c with
  | powerOn => cases ht; exact hquiet _ (quiet_resetPart s)
  | rstnReset => cases ht; exact hquiet _ h.rstnReset
  | rstnRelease => cases ht; exact hquiet _ h.rstnRelease
  | risingEdge =>
    cases ht
    have hpin : (setDemodIn true s).Quiet := h.congr rfl
    exact hquiet _ (hpin.live_of_eq hpin.risingEdge_eq)
  | fallingEdge n =>
    cases ht
    have hpin : (setDemodIn false s).Quiet := h.congr rfl
    exact hquiet _ (hpin.live_of_eq (hpin.fallingEdge_eq _))
  | silence => cases ht; exact hquiet _ (h.live_of_eq h.silence_eq)
  | blindingEnd => cases ht; exact hquiet _ (h.live_of_eq h.blindingEnd_eq)
  | slotEnd => cases ht; exact hquiet _ (h.live_of_eq h.slotEnd_eq)
  | backoffCompletion => cases ht; exact hquiet _ (h.live_of_eq h.backoffCompletion_eq)
  | handOver => cases ht; exact hquiet _ (h.live_of_eq h.handOver_eq)
  | transmissionComplete => cases ht; exact hquiet _ (h.live_of_eq h.transmissionComplete_eq)
  | grant => cases ht; exact hquiet _ (h.live_of_eq h.grant_eq)
  | decoderTake => cases ht; exact hquiet _ (h.live_of_eq h.decoderTake_eq)
  | decodeCompletion => cases ht; exact hquiet _ (h.live_of_eq h.decodeCompletion_eq)
  | entryDeadline i => cases ht; exact hquiet _ (h.live_of_eq (h.entryDeadline_eq i))
  | relayHoldOffExpiry i => cases ht; exact hquiet _ (h.live_of_eq (h.relayHoldOffExpiry_eq i))
  | originHoldOffExpiry i => cases ht; exact hquiet _ (h.live_of_eq (h.originHoldOffExpiry_eq i))
  | echoDeadline i => cases ht; exact hquiet _ (h.live_of_eq (h.echoDeadline_eq i))
  | listenExpiry => cases ht; exact hquiet _ (h.live_of_eq (listenExpiry_of_unconfigured hu))
  | csnFall =>
    cases ht
    have hpin : (setCsn false s).Quiet := h.congr rfl
    refine hquiet _ (hpin.live ?_)
    split
    · exact hpin.congr rfl
    · exact hpin
  | csnRise =>
    cases ht
    have hpin : (setCsn true s).Quiet := h.congr rfl
    exact hquiet _ (hpin.live (hpin.congr rfl))
  | configure _ | submit _ | collectMessage | collectReport | readStatus | readCounters _ | clearEvents _ | restart
  | malformedRequest _ => cases ht; exact hlive _ (h.hostRequest hu _)
  | byteComplete b => cases ht; exact hlive _ (h.byteComplete hu b)
  | collectMessageFinalByte | collectReportFinalByte | readCountersFinalByte =>
    cases ht; exact hquiet _ (h.live (h.clockToEnd _))

/-- A property that commands and REFCLK periods keep, and that the queue and the count of choices do not touch, is kept
by every step (log 1). -/
theorem step_keeps {P : State → Prop} (hexec : ∀ c s t, P s → exec c s = .next t → P t)
    (hclock : ∀ s, P s → P (clockPeriod s)) (hqueue : ∀ s rest, P s → P { s with pending := rest })
    (hchosen : ∀ s, P s → P s.chosen) {s t : State} (hs : P s) (ht : step s = .next t) : P t := by
  unfold step at ht
  split at ht
  · exact hexec _ _ _ (hqueue _ _ hs) ht
  · unfold idleStep at ht
    split at ht
    · exact hexec _ _ _ (hchosen _ hs) ht
    · obtain rfl := Host.Outcome.next.inj ht
      exact hclock s hs

/-- Every command keeps an UNCONFIGURED station quiet. -/
theorem quietUnconfigured_exec (c : Instr) (s t : State) (h : s.QuietUnconfigured) (ht : exec c s = .next t) :
    t.QuietUnconfigured := by
  by_cases hu : s.station.state = .unconfigured
  · exact quietUnconfigured_exec_of_quiet hu ((quietUnconfigured_iff s).1 h hu) c ht
  · refine (quietUnconfigured_iff t).2 fun hreset => ?_
    by_cases hp : c = .powerOn
    · subst hp
      cases ht
      exact quiet_resetPart s
    · by_cases hr : c = .rstnReset
      · subst hr
        cases ht
        unfold rstnReset at hreset ⊢
        split
        · next hheld =>
          rw [if_pos hheld] at hreset
          exact absurd hreset hu
        · exact quiet_resetPart _
      · exact absurd hreset (configured_exec hu hp hr ht)

theorem quietUnconfigured_clockPeriod (s : State) (h : s.QuietUnconfigured) : (clockPeriod s).QuietUnconfigured := by
  rw [quietUnconfigured_iff] at h ⊢
  rw [clockPeriod_station_state]
  exact fun hu => (h hu).clockPeriod

/-- Settles O60: a quiet station does nothing but answer, and only a reset makes a configured one UNCONFIGURED. -/
theorem stepKeepsUnconfiguredQuiet : Obligations.StepKeepsUnconfiguredQuiet := fun _ _ h ht =>
  step_keeps (P := State.QuietUnconfigured) quietUnconfigured_exec quietUnconfigured_clockPeriod
    (fun s _ h => (quietUnconfigured_iff _).2 fun hu => ((quietUnconfigured_iff s).1 h hu).congr rfl)
    (fun s h => (quietUnconfigured_iff _).2 fun hu => ((quietUnconfigured_iff s).1 h hu).congr rfl) h ht

end Sys2Proof.Machine
end

section
/-! PROOFS. The medium, the Transmit Controller's view, the receiver phase and the Copy Assembler in agreement (O56). -/

namespace Sys2Proof.Machine

/-! ## The Transmit Controller's view: only a report of the medium moves it -/

section
variable (s : State)

@[simp] theorem removeOrigin_transmit_view (i : Nat) (o : OriginItem) :
    (removeOrigin i o s).transmit.view = s.transmit.view := rfl

@[simp] theorem fileReport_transmit_view (i : Nat) (o : OriginItem) :
    (fileReport i o s).transmit.view = s.transmit.view := rfl

@[simp] theorem makeReport_transmit_view (i : Nat) : (makeReport i s).transmit.view = s.transmit.view := by
  unfold makeReport
  split
  · rfl
  · split <;> simp

@[simp] theorem removeReport_transmit_view : (removeReport s).transmit.view = s.transmit.view := by
  unfold removeReport
  dsimp only
  split
  · split
    · rfl
    · split <;> simp
  · rfl

@[simp] theorem endRepeat_transmit_view (sent : Bool) (i : Nat) :
    (endRepeat sent i s).transmit.view = s.transmit.view := by
  unfold endRepeat
  split
  · rfl
  · have hcounted : (if sent then count .originsSent s else s).transmit = s.transmit := by cases sent <;> rfl
    dsimp only
    split
    · simp [hcounted]
    · split <;> simp [hcounted]

@[simp] theorem abandon_transmit_view (g : Granted) : (abandon g s).transmit.view = s.transmit.view := by
  unfold abandon
  cases g with
  | relay i => dsimp only; split <;> simp
  | origin i => simp

@[simp] theorem deferGranted_transmit_view (g : Granted) : (deferGranted g s).transmit.view = s.transmit.view := by
  unfold deferGranted
  dsimp only
  split <;> simp

@[simp] theorem drawBackoff_transmit (g : Granted) :
    (drawBackoff g s).transmit =
      ⟨.backoff g (s.nextDraw (backoffRange (grantedUrgent s g))) 0, s.transmit.view⟩ := rfl

@[simp] theorem grant_transmit_view : (grant s).transmit.view = s.transmit.view := by
  unfold grant
  split
  · split
    · unfold grantItem
      dsimp only
      split <;> simp
    · rfl
  · rfl

@[simp] theorem slotEnd_transmit_view : (slotEnd s).transmit.view = s.transmit.view := by
  unfold slotEnd
  split
  · split <;> simp
  · rfl

@[simp] theorem handCopyOver_transmit_view (g : Granted) (k : Key) (i : Identity) (hops slot : Nat) :
    (handCopyOver g k i hops slot s).transmit.view = s.transmit.view := by simp [handCopyOver]

@[simp] theorem backoffCompletion_transmit_view : (backoffCompletion s).transmit.view = s.transmit.view := by
  unfold backoffCompletion
  split
  · split
    · split
      · split
        · split <;> simp
        · rfl
      · split
        · simp
        · rfl
    · rfl
  · rfl

@[simp] theorem nextCheck_transmit_view : (nextCheck s).transmit.view = s.transmit.view := by
  unfold nextCheck
  split <;> simp

@[simp] theorem takeChecks_transmit_view (n : Nat) : (takeChecks n s).transmit.view = s.transmit.view := by
  induction n generalizing s with
  | zero => rfl
  | succ n ih => rw [takeChecks, ih, nextCheck_transmit_view]

@[simp] theorem handBackSent_transmit_view (g : Granted) : (handBackSent g s).transmit.view = s.transmit.view := by
  unfold handBackSent
  cases g with
  | relay i => dsimp only; split <;> simp
  | origin i => simp

@[simp] theorem reportMedium_transmit_view (m : Medium) : (reportMedium m s).transmit.view = m := by
  unfold reportMedium
  dsimp only
  split <;> simp

@[simp] theorem setMedium_line (m : Medium) : (setMedium m s).line = { s.line with medium := m } := by
  unfold setMedium
  split
  · next h => rw [← h]
  · simp

theorem setMedium_transmit_view (m : Medium) (h : s.transmit.view = s.line.medium) :
    (setMedium m s).transmit.view = m := by
  unfold setMedium
  split
  · next hm => rw [h, hm]
  · simp

/-! ## The effects of one command on what the agreement reads -/

/-- A silence ends a copy in every phase (R40, R45, R47). -/
theorem assemble_silence_phase : (assemble .silence s).assembler.phase = .hunt := by
  unfold assemble
  split
  · assumption
  · rfl
  · rfl
  · rfl

end

/-- What `State.MediumAgrees` reads. -/
def State.mediumPart (s : State) : Medium × Medium × ReceiverPhase × Bool × AssemblerPhase × StationState :=
  (s.transmit.view, s.line.medium, s.line.phase, s.line.silenceRaised, s.assembler.phase, s.station.state)

namespace State.MediumAgrees

variable {s : State} (h : s.MediumAgrees)
include h

theorem congr {t : State} (ht : t.mediumPart = s.mediumPart) : t.MediumAgrees := by
  simp only [State.mediumPart, Prod.mk.injEq] at ht
  obtain ⟨hview, hmedium, hphase, hraised, hassembler, hstate⟩ := ht
  refine ⟨?_, ?_, ?_, ?_⟩
  · rw [hview, hmedium]; exact h.view
  · rw [hmedium, hphase, hraised]; exact h.dark
  · rw [hmedium, hassembler]; exact h.hunt
  · rw [hstate, hphase]; exact h.off

theorem setPort (p : Port) : (setPort p s).MediumAgrees := h.congr rfl

/-- Outside a raised silence in DARK the medium is BUSY. -/
theorem busy_of_phase (hp : s.line.phase ≠ .dark) : s.line.medium = .busy := by
  cases hm : s.line.medium with
  | idle => exact absurd (h.dark hm).1 hp
  | busy => rfl

theorem busy_of_not_raised (hr : s.line.silenceRaised = false) : s.line.medium = .busy := by
  cases hm : s.line.medium with
  | idle => cases hr.symm.trans (h.dark hm).2
  | busy => rfl

theorem configured_of_phase (hp : s.line.phase ≠ .off) : s.station.state ≠ .unconfigured := fun hu => hp (h.off hu)

end State.MediumAgrees

/-- With a BUSY medium only the view and the tick base are left to agree. -/
theorem mediumAgrees_of_busy {s : State} (hb : s.line.medium = .busy) (hv : s.transmit.view = .busy)
    (hoff : s.station.state = .unconfigured → s.line.phase = .off) : s.MediumAgrees where
  view := hv.trans hb.symm
  dark := fun hi => nomatch hb.symm.trans hi
  hunt := fun hi => nomatch hb.symm.trans hi
  off := hoff

/-! ## Commands that leave all the agreement reads -/

section
variable (s : State)

theorem slotEnd_mediumPart : (slotEnd s).mediumPart = s.mediumPart := by
  unfold slotEnd
  split
  · split
    · simp [State.mediumPart]
    · rfl
  · rfl

theorem decodeCompletion_mediumPart : (decodeCompletion s).mediumPart = s.mediumPart := by
  unfold decodeCompletion
  split
  · rfl
  · dsimp only
    split <;> simp [State.mediumPart]

theorem entryDeadline_mediumPart (i : Nat) : (entryDeadline i s).mediumPart = s.mediumPart := by
  unfold entryDeadline
  split
  · rfl
  · split
    · rfl
    · dsimp only
      split <;> simp [State.mediumPart]

theorem relayHoldOffExpiry_mediumPart (i : Nat) : (relayHoldOffExpiry i s).mediumPart = s.mediumPart := by
  unfold relayHoldOffExpiry
  split
  · rfl
  · split
    · dsimp only
      split <;> simp [State.mediumPart]
    · rfl

theorem originHoldOffExpiry_mediumPart (i : Nat) : (originHoldOffExpiry i s).mediumPart = s.mediumPart := by
  unfold originHoldOffExpiry
  split
  · rfl
  · split
    · simp [State.mediumPart]
    · rfl

theorem echoDeadline_mediumPart (i : Nat) : (echoDeadline i s).mediumPart = s.mediumPart := by
  unfold echoDeadline
  split
  · rfl
  · split
    · simp [State.mediumPart]
    · rfl

theorem commitResponse_transmit_view (r : Response) : (commitResponse r s).transmit.view = s.transmit.view := by
  unfold commitResponse
  split
  · rfl
  · split <;> simp
  · split <;> simp
  · rfl

end

/-! ## The commands -/

theorem mediumAgrees_resetPart (s : State) : (resetPart s).MediumAgrees :=
  mediumAgrees_of_busy rfl rfl fun _ => rfl

/-- The medium turns IDLE in a raised silence of a configured station, and finds the assembler in HUNT (R24, R25). -/
theorem mediumAgrees_endSpace {s : State} (hb : s.line.medium = .busy) (hv : s.transmit.view = .busy)
    (hp : s.line.phase = .dark)
    (hr : s.line.silenceRaised = true) (hc : s.station.state ≠ .unconfigured) : (endSpace s).MediumAgrees := by
  unfold endSpace
  split
  · unfold silenceInBody
    refine ⟨?_, ?_, fun _ => assemble_silence_phase _, fun hu => ?_⟩
    · simpa using setMedium_transmit_view s.ordered .idle (hv.trans hb.symm)
    · simp [hp, hr]
    · exact absurd (by simpa using hu) hc
  · refine ⟨?_, ?_, fun _ => ?_, fun hu => ?_⟩
    · simpa using setMedium_transmit_view (assemble .silence s) .idle (by simpa using hv.trans hb.symm)
    · simp [hp, hr]
    · rw [setMedium_assembler]; exact assemble_silence_phase s
    · exact absurd (by simpa using hu) hc

section
variable {s : State} (h : s.MediumAgrees)
include h

/-- An effect that keeps the agreement keeps it as a command (R170, R178). -/
theorem mediumAgrees_live {f : State → State} (hf : (f s).MediumAgrees) : (live f s).MediumAgrees := by
  unfold live
  split
  · exact h
  · exact hf.congr rfl

/-- The accepted rising edge turns the medium BUSY (R25). -/
theorem mediumAgrees_risingEdge : (risingEdge s).MediumAgrees := by
  unfold risingEdge
  split
  · next hp =>
    have hc := h.configured_of_phase (by rw [hp]; decide)
    refine mediumAgrees_of_busy (by simp) ?_ fun hu => ?_
    · exact setMedium_transmit_view _ _ (by simpa [Line.rise] using h.view)
    · exact absurd (by simpa using hu) hc
  · exact h

/-- The accepted falling edge begins a space whose silence is not raised; the medium is BUSY in LIT (R20, R25). -/
theorem mediumAgrees_fallingEdge (n : Nat) : (fallingEdge n s).MediumAgrees := by
  have hstate := fallingEdge_station_state s n
  unfold fallingEdge at hstate ⊢
  split
  · next hp =>
    have hb := h.busy_of_phase (by rw [hp]; decide)
    have hc := h.configured_of_phase (by rw [hp]; decide)
    refine mediumAgrees_of_busy (by simpa [Line.fall] using hb) ?_ fun hu => ?_
    · simpa using h.view.trans hb
    · exact absurd (by simpa using hu) hc
  · exact h

theorem mediumAgrees_silence : (silence s).MediumAgrees := by
  unfold silence
  split
  · next hs =>
    obtain ⟨hp, hr⟩ := hs
    have hb := h.busy_of_not_raised hr
    have hc := h.configured_of_phase (by rw [hp]; decide)
    dsimp only
    rw [if_neg (by simpa using hc)]
    exact mediumAgrees_endSpace (by simpa using hb) (by simpa using h.view.trans hb) (by simpa using hp) rfl
      (by simpa using hc)
  · exact h

/-- The end of blinding leaves the medium BUSY (R31). -/
theorem mediumAgrees_blindingEnd : (blindingEnd s).MediumAgrees := by
  unfold blindingEnd
  split
  · next hp _ =>
    have hb := h.busy_of_phase (by rw [hp]; decide)
    have hc := h.configured_of_phase (by rw [hp]; decide)
    refine mediumAgrees_of_busy (by simpa [Line.listen] using hb) ?_ fun hu => ?_
    · simpa using h.view.trans hb
    · exact absurd (by simpa using hu) hc
  · exact h

/-- A transmission starts on an IDLE medium, which it makes BUSY; a refused hand-over finds it BUSY (R28, R135). -/
theorem mediumAgrees_handOver : (handOver s).MediumAgrees := by
  unfold handOver
  split
  · next g hd b _ =>
    split
    · next hi =>
      have hc := h.configured_of_phase (by rw [(h.dark hi).1]; decide)
      unfold startTransmission
      refine mediumAgrees_of_busy (by simp) ?_ fun hu => ?_
      · exact setMedium_transmit_view _ _ (by simpa [Line.startSending] using h.view)
      · exact absurd (by simpa using hu) hc
    · next hi =>
      have hb : s.line.medium = .busy := by
        cases hm : s.line.medium with
        | idle => exact absurd hm hi
        | busy => rfl
      exact h.congr (by simp [State.mediumPart, refuseHandOver, h.view.trans hb])
  · exact h

theorem mediumAgrees_transmissionComplete : (transmissionComplete s).MediumAgrees := by
  unfold transmissionComplete
  split
  · exact h.congr (by simp [State.mediumPart, Line.stopSending])
  · exact h

/-- The listen expiry leaves UNCONFIGURED out (R162). -/
theorem mediumAgrees_listenExpiry : (listenExpiry s).MediumAgrees := by
  unfold listenExpiry
  split
  · exact ⟨by simpa using h.view, by simpa using h.dark, by simpa using h.hunt, fun hu => nomatch hu⟩
  · exact h

/-- The takes: CONFIGURE and RESTART begin reception on a BUSY medium, the others leave the line (R33, R34). -/
theorem mediumAgrees_takeRequest (r : Request) : (takeRequest r s).MediumAgrees := by
  have hanswer (st : Status) : (answer st s).MediumAgrees := h.congr rfl
  have hgo (take : State → State) (ht : (take s).MediumAgrees) : (whenConfigured take s).MediumAgrees := by
    unfold whenConfigured
    split
    · exact hanswer _
    · exact ht
  cases r with
  | configure p =>
    rw [takeRequest, takeConfigure]
    split
    · exact hanswer _
    · next hu =>
      have hb := h.busy_of_phase (by rw [h.off (not_not.1 hu)]; decide)
      split
      · exact mediumAgrees_of_busy hb (h.view.trans hb) fun hu => nomatch hu
      · exact hanswer _
  | submit p => exact hgo _ (h.congr (by simp [State.mediumPart]))
  | collectMessage => exact hgo _ (h.congr (by simp [State.mediumPart]))
  | collectReport => exact hgo _ (h.congr (by simp [State.mediumPart]))
  | readStatus => exact h.congr rfl
  | readCounters c => exact h.congr (by simp [State.mediumPart, takeRequest])
  | clearEvents m => exact hgo _ (h.congr (by simp [State.mediumPart]))
  | restart =>
    have hrestart : (answer .ok (restartPart s)).MediumAgrees := mediumAgrees_of_busy rfl rfl fun hu => nomatch hu
    exact hgo (fun s => answer .ok (restartPart s)) hrestart
  | malformed bs => exact hanswer _

theorem mediumAgrees_hostRequest (r : Request) : (hostRequest r s).MediumAgrees := by
  unfold hostRequest
  split
  · exact mediumAgrees_takeRequest (h.setPort _) r
  · exact h

theorem mediumAgrees_finishResponse (r : Response) : (finishResponse r s).MediumAgrees :=
  h.congr (by simp [State.mediumPart, finishResponse, commitResponse_transmit_view])

theorem mediumAgrees_clockToEnd (kind : Commit) : (clockToEnd kind s).MediumAgrees := by
  unfold clockToEnd
  split
  · split
    · exact mediumAgrees_finishResponse (h.setPort _) _
    · exact h
  · exact h

theorem mediumAgrees_byteComplete (b : Byte) : (byteComplete b s).MediumAgrees := by
  unfold byteComplete
  split
  · exact h.congr rfl
  · unfold requestByte
    dsimp only
    split
    · exact mediumAgrees_takeRequest (h.setPort _) _
    · exact h.congr rfl
  · unfold responseByte
    split
    · exact h
    · dsimp only
      split
      · exact mediumAgrees_finishResponse (h.setPort _) _
      · exact h.congr rfl
  · exact h.congr rfl

theorem mediumAgrees_rstnReset : (rstnReset s).MediumAgrees := by
  unfold rstnReset
  split
  · exact h.congr rfl
  · exact mediumAgrees_resetPart _

theorem mediumAgrees_rstnRelease : (rstnRelease s).MediumAgrees := by
  unfold rstnRelease
  dsimp only
  split <;> exact h.congr rfl

/-- One REFCLK period moves neither of what the agreement speaks of (log 1). -/
theorem mediumAgrees_clockPeriod : (clockPeriod s).MediumAgrees := by
  have hsample (l : Line) (level : Bool) :
      (l.sample level).medium = l.medium ∧ (l.sample level).phase = l.phase
        ∧ (l.sample level).silenceRaised = l.silenceRaised := by
    unfold Line.sample
    split
    · split <;> exact ⟨rfl, rfl, rfl⟩
    · split <;> exact ⟨rfl, rfl, rfl⟩
    · exact ⟨rfl, rfl, rfl⟩
    · exact ⟨rfl, rfl, rfl⟩
  unfold clockPeriod sampleLine
  dsimp only
  split
  · exact h.congr (by simp [State.mediumPart])
  · split
    · exact h.congr (by simp [State.mediumPart])
    · exact h.congr (by simp [State.mediumPart, hsample])

end

/-- Every command keeps the agreement of the medium. -/
theorem mediumAgrees_exec (c : Instr) (s t : State) (h : s.MediumAgrees) (ht : exec c s = .next t) :
    t.MediumAgrees := by
  cases c with
  | powerOn => cases ht; exact mediumAgrees_resetPart s
  | rstnReset => cases ht; exact mediumAgrees_rstnReset h
  | rstnRelease => cases ht; exact mediumAgrees_rstnRelease h
  | risingEdge =>
    cases ht
    have hpin : (setDemodIn true s).MediumAgrees := h.congr rfl
    exact mediumAgrees_live hpin (mediumAgrees_risingEdge hpin)
  | fallingEdge n =>
    cases ht
    have hpin : (setDemodIn false s).MediumAgrees := h.congr rfl
    exact mediumAgrees_live hpin (mediumAgrees_fallingEdge hpin _)
  | silence => cases ht; exact mediumAgrees_live h (mediumAgrees_silence h)
  | blindingEnd => cases ht; exact mediumAgrees_live h (mediumAgrees_blindingEnd h)
  | handOver => cases ht; exact mediumAgrees_live h (mediumAgrees_handOver h)
  | transmissionComplete => cases ht; exact mediumAgrees_live h (mediumAgrees_transmissionComplete h)
  | listenExpiry => cases ht; exact mediumAgrees_live h (mediumAgrees_listenExpiry h)
  | csnFall =>
    cases ht
    have hpin : (setCsn false s).MediumAgrees := h.congr rfl
    refine mediumAgrees_live hpin ?_
    split
    · exact hpin.congr rfl
    · exact hpin
  | csnRise =>
    cases ht
    have hpin : (setCsn true s).MediumAgrees := h.congr rfl
    exact mediumAgrees_live hpin (hpin.congr rfl)
  | configure _ | submit _ | collectMessage | collectReport | readStatus | readCounters _ | clearEvents _ | restart
  | malformedRequest _ => cases ht; exact mediumAgrees_live h (mediumAgrees_hostRequest h _)
  | byteComplete b => cases ht; exact mediumAgrees_live h (mediumAgrees_byteComplete h b)
  | collectMessageFinalByte | collectReportFinalByte | readCountersFinalByte =>
    cases ht; exact mediumAgrees_live h (mediumAgrees_clockToEnd h _)
  | slotEnd => cases ht; exact mediumAgrees_live h (h.congr (slotEnd_mediumPart s))
  | decodeCompletion => cases ht; exact mediumAgrees_live h (h.congr (decodeCompletion_mediumPart s))
  | entryDeadline i => cases ht; exact mediumAgrees_live h (h.congr (entryDeadline_mediumPart s i))
  | relayHoldOffExpiry i => cases ht; exact mediumAgrees_live h (h.congr (relayHoldOffExpiry_mediumPart s i))
  | originHoldOffExpiry i => cases ht; exact mediumAgrees_live h (h.congr (originHoldOffExpiry_mediumPart s i))
  | echoDeadline i => cases ht; exact mediumAgrees_live h (h.congr (echoDeadline_mediumPart s i))
  | backoffCompletion | grant | decoderTake =>
    cases ht; exact mediumAgrees_live h (h.congr (by simp [State.mediumPart]))

end Sys2Proof.Machine
end

section
/-! PROOFS. The controller and the owners of its item in agreement (O56). -/

namespace Sys2Proof.Machine

/-! ## Roles -/

/-- The part an item has in the grant: none, CONTENDING or SENDING (R108, R145). -/
inductive Role where
  | resting
  | contending
  | sending
  deriving DecidableEq

def RelayState.role : RelayState → Role
  | .holding => .resting
  | .ready _ => .resting
  | .contending _ => .contending
  | .sending _ => .sending

def OriginState.role : OriginState → Role
  | .contending _ => .contending
  | .sending _ => .sending
  | .held => .resting
  | .ready _ => .resting
  | .holding _ => .resting
  | .echoWait _ => .resting
  | .reportPending => .resting

/-- The role an item has by its owner; where there is no item, none. -/
def ownedRole (s : State) : Granted → Role
  | .relay i => ((relayAt s i).map fun r => r.state.role).getD .resting
  | .origin i => ((s.outbox[i]?).map fun o => o.state.role).getD .resting

/-- The role the controller gives an item (R126). -/
def Controller.role (c : Controller) (g : Granted) : Role :=
  match c with
  | .idle => .resting
  | .backoff x _ _ => if g = x then .contending else .resting
  | .sending x _ _ _ => if g = x then .sending else .resting

/-- A backoff counts at most 7 slots of at most 64 ticks (R129; log 10). -/
def Controller.InRange (c : Controller) : Prop := ∀ g n u, c = .backoff g n u → n ≤ 7 ∧ u ≤ 64

theorem isContending_iff (s : State) (g : Granted) : isContending s g ↔ ownedRole s g = .contending := by
  cases g with
  | relay i =>
    simp only [isContending, ownedRole]
    rcases relayAt s i with _ | r
    · simp
    · rcases hr : r.state <;> simp [RelayState.role, hr]
  | origin i =>
    simp only [isContending, ownedRole]
    rcases s.outbox[i]? with _ | o
    · simp
    · rcases ho : o.state <;> simp [OriginState.role, ho]

theorem isSending_iff (s : State) (g : Granted) : isSending s g ↔ ownedRole s g = .sending := by
  cases g with
  | relay i =>
    simp only [isSending, ownedRole]
    rcases relayAt s i with _ | r
    · simp
    · rcases hr : r.state <;> simp [RelayState.role, hr]
  | origin i =>
    simp only [isSending, ownedRole]
    rcases s.outbox[i]? with _ | o
    · simp
    · rcases ho : o.state <;> simp [OriginState.role, ho]

theorem role_contending_iff (c : Controller) (g : Granted) : c.role g = .contending ↔ ∃ n u, c = .backoff g n u := by
  rcases c with _ | ⟨x, n, u⟩ | ⟨x, h, b, y⟩
  · simp [Controller.role]
  · by_cases hg : g = x <;> simp [Controller.role, hg, eq_comm]
  · by_cases hg : g = x <;> simp [Controller.role, hg]

theorem role_sending_iff (c : Controller) (g : Granted) :
    c.role g = .sending ↔ ∃ h b y, c = .sending g h b y := by
  rcases c with _ | ⟨x, n, u⟩ | ⟨x, h, b, y⟩
  · simp [Controller.role]
  · by_cases hg : g = x <;> simp [Controller.role, hg]
  · by_cases hg : g = x <;> simp [Controller.role, hg, eq_comm]

/-- Only the granted item has a role (R126). -/
theorem role_of_ne {c : Controller} {g x : Granted} (hg : c.role g ≠ .resting) (hx : x ≠ g) : c.role x = .resting := by
  rcases c with _ | ⟨y, n, u⟩ | ⟨y, hd, b, z⟩
  · rfl
  · have hy : g = y := by by_contra hne; exact hg (if_neg hne)
    exact if_neg (hy ▸ hx)
  · have hy : g = y := by by_contra hne; exact hg (if_neg hne)
    exact if_neg (hy ▸ hx)

/-- Controller and owners agree exactly when they give every item one role (R126). -/
theorem grantAgrees_iff (s : State) :
    s.GrantAgrees ↔ (∀ g, ownedRole s g = s.transmit.controller.role g) ∧ s.transmit.controller.InRange := by
  constructor
  · intro h
    refine ⟨fun g => ?_, h.backoff⟩
    have hc := h.contending g
    have hs := h.sending g
    rw [isContending_iff, ← role_contending_iff] at hc
    rw [isSending_iff, ← role_sending_iff] at hs
    cases ho : ownedRole s g with
    | contending => exact (hc.1 ho).symm
    | sending => exact (hs.1 ho).symm
    | resting =>
      cases hr : s.transmit.controller.role g with
      | contending => exact absurd (hc.2 hr) (by rw [ho]; decide)
      | sending => exact absurd (hs.2 hr) (by rw [ho]; decide)
      | resting => rfl
  · rintro ⟨hrole, hrange⟩
    refine ⟨fun g => ?_, fun g => ?_, hrange⟩
    · rw [isContending_iff, hrole, role_contending_iff]
    · rw [isSending_iff, hrole, role_sending_iff]

/-- Controller and owners agree but for one item, which the controller leaves alone: the state while that item is handed
back. -/
structure AgreesBut (g : Granted) (s : State) : Prop where
  others : ∀ x, x ≠ g → ownedRole s x = s.transmit.controller.role x
  free : s.transmit.controller.role g = .resting
  range : s.transmit.controller.InRange

theorem AgreesBut.agrees {g : Granted} {s : State} (h : AgreesBut g s) (hg : ownedRole s g = .resting) :
    s.GrantAgrees := by
  refine (grantAgrees_iff s).2 ⟨fun x => ?_, h.range⟩
  by_cases hx : x = g
  · rw [hx, hg, h.free]
  · exact h.others x hx

/-- An item that rests is one the controller leaves alone. -/
theorem agreesBut_of_resting {g : Granted} {s : State} (h : s.GrantAgrees) (hg : ownedRole s g = .resting) :
    AgreesBut g s := by
  obtain ⟨hrole, hrange⟩ := (grantAgrees_iff s).1 h
  exact ⟨fun x _ => hrole x, (hrole g).symm.trans hg, hrange⟩

/-- The controller returns to IDLE, and its item is to be handed back. -/
theorem agreesBut_setController_idle {g : Granted} {s : State} (h : s.GrantAgrees)
    (hg : s.transmit.controller.role g ≠ .resting) : AgreesBut g (setController .idle s) := by
  obtain ⟨hrole, -⟩ := (grantAgrees_iff s).1 h
  exact ⟨fun x hx => (hrole x).trans (role_of_ne hg hx), rfl, nofun⟩

/-! ## What the owners' operations do to the roles -/

section
variable (s : State)

theorem ownedRole_congr {s t : State} (hr : t.relays = s.relays) (ho : t.outbox = s.outbox) :
    ownedRole t = ownedRole s := by
  funext g
  cases g with
  | relay i => simp only [ownedRole, relayAt_congr i hr]
  | origin i => simp only [ownedRole, ho]

/-- A relay item changed in place. -/
theorem ownedRole_updateRelay (i : Nat) (f : RelayItem → RelayItem) (g : Granted) :
    ownedRole (updateRelay i f s) g =
      if g = .relay i then ((relayAt s i).map fun r => (f r).state.role).getD .resting else ownedRole s g := by
  cases g with
  | origin j => rw [if_neg nofun]; rfl
  | relay j =>
    simp only [ownedRole, relayAt, updateRelay_relays, List.getD_eq_getElem?_getD, List.getElem?_modify,
      Granted.relay.injEq]
    by_cases hij : i = j
    · subst hij
      rcases s.relays[i]? with _ | _ | r <;> simp
    · rw [if_neg (Ne.symm hij)]
      rcases s.relays[j]? with _ | _ | r <;> simp [hij]

/-- An origin item changed in place. -/
theorem ownedRole_updateOrigin (i : Nat) (f : OriginItem → OriginItem) (g : Granted) :
    ownedRole (updateOrigin i f s) g =
      if g = .origin i then ((s.outbox[i]?).map fun o => (f o).state.role).getD .resting else ownedRole s g := by
  cases g with
  | relay j => rw [if_neg nofun]; rfl
  | origin j =>
    simp only [ownedRole, updateOrigin_outbox, List.getElem?_modify, Granted.origin.injEq]
    by_cases hij : i = j
    · subst hij
      rcases s.outbox[i]? with _ | o <;> simp
    · rw [if_neg (Ne.symm hij)]
      rcases s.outbox[j]? with _ | o <;> simp [hij]

/-- A change that leaves the item's role leaves every role. -/
theorem ownedRole_updateRelay_same (i : Nat) {f : RelayItem → RelayItem}
    (hf : ∀ r, relayAt s i = some r → (f r).state.role = r.state.role) :
    ownedRole (updateRelay i f s) = ownedRole s := by
  funext g
  rw [ownedRole_updateRelay]
  split
  · next hg =>
    subst hg
    rw [ownedRole]
    cases hr : relayAt s i with
    | none => rfl
    | some r => exact hf r hr
  · rfl

theorem ownedRole_updateOrigin_same (i : Nat) {f : OriginItem → OriginItem}
    (hf : ∀ o, s.outbox[i]? = some o → (f o).state.role = o.state.role) :
    ownedRole (updateOrigin i f s) = ownedRole s := by
  funext g
  rw [ownedRole_updateOrigin]
  split
  · next hg =>
    subst hg
    rw [ownedRole]
    cases ho : s.outbox[i]? with
    | none => rfl
    | some o => exact hf o ho
  · rfl

/-- A relay item removed (R115, R116, R120). -/
theorem ownedRole_dropRelay (i : Nat) (item : RelayItem) (g : Granted) :
    ownedRole (dropRelay i item s) g = if g = .relay i then .resting else ownedRole s g := by
  cases g with
  | origin j => rw [if_neg nofun, ownedRole, dropRelay_outbox]; rfl
  | relay j =>
    have hrelays : (dropRelay i item s).relays = s.relays.set i none := rfl
    simp only [ownedRole, relayAt, hrelays, List.getD_eq_getElem?_getD, List.getElem?_set, Granted.relay.injEq]
    by_cases hij : i = j
    · subst hij
      rw [if_pos rfl, if_pos rfl]
      split <;> rfl
    · rw [if_neg hij, if_neg (Ne.symm hij)]

/-- A new relay item begins in HOLDING, at a place that held none (R109, R112). -/
theorem ownedRole_requestRelay (e : Entry) (slot : Nat) : ownedRole (requestRelay e slot s) = ownedRole s := by
  unfold requestRelay
  split
  · split
    · rfl
    · next i hi =>
      obtain ⟨hlt, hfree, -⟩ := List.findIdx?_eq_some_iff_getElem.1 hi
      have hnone : s.relays[i]? = some none := by
        rw [List.getElem?_eq_getElem hlt, Option.isNone_iff_eq_none.1 hfree]
      funext g
      cases g with
      | origin j => rfl
      | relay j =>
        simp only [ownedRole, relayAt, holdSlot_relays, List.getD_eq_getElem?_getD, List.getElem?_set]
        by_cases hij : i = j
        · subst hij
          rw [hnone, if_pos rfl, if_pos hlt]
          rfl
        · rw [if_neg hij]
  · rfl

theorem ownedRole_deliver (e : Entry) (u slot : Nat) : ownedRole (deliver e u slot s) = ownedRole s := by
  unfold deliver
  rw [ownedRole_requestRelay]
  exact ownedRole_congr (by split <;> simp) (by split <;> simp)

theorem ownedRole_decodeSuccess (d : Decode) (payload : List Byte) :
    ownedRole (decodeSuccess d payload s) = ownedRole s := by
  unfold decodeSuccess
  dsimp only
  split
  · exact ownedRole_congr (by simp) (by simp)
  · rw [ownedRole_congr (endDecode_relays _ _) (endDecode_outbox _ _), ownedRole_deliver]
    exact ownedRole_congr rfl rfl

/-- A DUPLICATE and an ECHO count on items and move no state (R114, R152). -/
theorem ownedRole_hearDuplicate (k : Key) : ownedRole (hearDuplicate k s) = ownedRole s := by
  have hhear (r : RelayItem) : (r.hear k).state = r.state := by
    unfold RelayItem.hear
    split <;> rfl
  funext g
  cases g with
  | origin j => rfl
  | relay j =>
    simp only [ownedRole, relayAt_hearDuplicate, Option.map_map]
    congr 2
    funext r
    exact congrArg _ (hhear r)

theorem ownedRole_hearEcho (seq : Sequence) : ownedRole (hearEcho seq s) = ownedRole s := by
  have hhear (o : OriginItem) : (o.hearEcho seq).state = o.state := by
    unfold OriginItem.hearEcho
    split <;> rfl
  funext g
  cases g with
  | relay j => rfl
  | origin j =>
    simp only [ownedRole, hearEcho, List.getElem?_map, Option.map_map]
    congr 2
    funext o
    exact congrArg _ (hhear o)

theorem ownedRole_giveVerdict (r : CopyRecord) : ownedRole (giveVerdict r s) = ownedRole s := by
  unfold giveVerdict actOn
  split
  · exact ownedRole_hearEcho _ _
  · rfl
  · exact ownedRole_hearDuplicate _ _
  · rfl
  · exact ownedRole_congr (by simp) (by simp)
  · exact ownedRole_congr (by simp) (by simp)

theorem ownedRole_closeCopy (next : AssemblerPhase) : ownedRole (closeCopy next s) = ownedRole s := by
  unfold closeCopy
  split
  · exact ownedRole_giveVerdict s _
  · rfl

theorem ownedRole_bodySymbol (v : Int) (e : Bool) : ownedRole (bodySymbol v e s) = ownedRole s := by
  unfold bodySymbol
  split
  · rfl
  · dsimp only
    split
    · exact ownedRole_closeCopy _ _
    · split
      · exact ownedRole_closeCopy _ _
      · rfl

/-- No line event moves an item (R37 to R47). -/
theorem ownedRole_assemble (ev : LineEvent) : ownedRole (assemble ev s) = ownedRole s := by
  have hcut : ownedRole (truncateCopy s) = ownedRole s := ownedRole_closeCopy (count .copiesTruncated s) .hunt
  unfold assemble
  split
  · exact ownedRole_congr (by simp) (by simp)
  · exact ownedRole_congr (by simp) (by simp)
  · unfold bodyEvent
    split
    · exact ownedRole_bodySymbol s _ _
    · exact ownedRole_bodySymbol s _ _
    · exact hcut
    · exact hcut
    · exact hcut
  · exact ownedRole_congr (by simp) (by simp)

/-- An item joins the Outbox at its tail, READY or HELD (R147). -/
theorem ownedRole_acceptSubmit (p : SubmitParams) : ownedRole (acceptSubmit p s) = ownedRole s := by
  funext g
  cases g with
  | relay j => rfl
  | origin j =>
    have hrole (slot : Nat) : (newOrigin p slot s).state.role = .resting := by
      simp only [newOrigin]
      split <;> rfl
    have houtbox : (acceptSubmit p s).outbox = s.outbox ++ [newOrigin p (lowestFree s.slots) s] := rfl
    simp only [ownedRole, houtbox]
    rcases Nat.lt_trichotomy j s.outbox.length with hj | hj | hj
    · rw [List.getElem?_append_left hj]
    · subst hj
      simp [hrole]
    · rw [List.getElem?_eq_none (by simp; omega), List.getElem?_eq_none (by omega)]

/-- A HELD item released is READY (R148). -/
theorem ownedRole_release (now : Millis) :
    ownedRole { s with outbox := s.outbox.map fun o => o.release now } = ownedRole s := by
  have hrelease (o : OriginItem) : (o.release now).state.role = o.state.role := by
    unfold OriginItem.release
    split
    · next h => rw [h]; rfl
    · rfl
  funext g
  cases g with
  | relay j => rfl
  | origin j =>
    simp only [ownedRole, List.getElem?_map, Option.map_map]
    congr 2
    funext o
    exact hrelease o

end

/-! ## An item handed back -/

/-- The place an item had before the origin item at index `removed` left the Outbox (R144). -/
def Granted.unshift (removed : Nat) : Granted → Granted
  | .relay j => .relay j
  | .origin j => .origin (if j < removed then j else j + 1)

theorem unshift_ne (i : Nat) (g : Granted) : g.unshift i ≠ .origin i := by
  cases g with
  | relay j => exact nofun
  | origin j =>
    simp only [Granted.unshift, ne_eq, Granted.origin.injEq]
    split <;> omega

theorem eq_shift_iff (i : Nat) (g x : Granted) (hx : x ≠ .origin i) : g = x.shift i ↔ g.unshift i = x := by
  cases x with
  | relay k => cases g <;> simp [Granted.shift, Granted.unshift]
  | origin k =>
    have hk : k ≠ i := fun h => hx (congrArg _ h)
    cases g with
    | relay j =>
      simp only [Granted.shift, Granted.unshift]
      split <;> simp
    | origin j =>
      simp only [Granted.shift, Granted.unshift]
      split <;> split <;> simp only [Granted.origin.injEq] <;> omega

/-- A grant follows its item (R144). -/
theorem role_shift (c : Controller) (i : Nat) (hfree : c.role (.origin i) = .resting) (g : Granted) :
    (c.shift i).role g = c.role (g.unshift i) := by
  rcases c with _ | ⟨x, n, u⟩ | ⟨x, h, b, y⟩
  · rfl
  · have hx : x ≠ .origin i := fun h => by simp [Controller.role, h] at hfree
    simp only [Controller.shift, Controller.role, eq_shift_iff i g x hx]
  · have hx : x ≠ .origin i := fun h => by simp [Controller.role, h] at hfree
    simp only [Controller.shift, Controller.role, eq_shift_iff i g x hx]

theorem ownedRole_removeOrigin (i : Nat) (o : OriginItem) (s : State) (g : Granted) :
    ownedRole (removeOrigin i o s) g = ownedRole s (g.unshift i) := by
  cases g with
  | relay j => rfl
  | origin j =>
    have houtbox : (removeOrigin i o s).outbox = s.outbox.eraseIdx i := rfl
    simp only [ownedRole, Granted.unshift, houtbox, List.getElem?_eraseIdx]
    split <;> rfl

theorem inRange_shift {c : Controller} (h : c.InRange) (i : Nat) : (c.shift i).InRange := by
  rcases c with _ | ⟨x, n, u⟩ | ⟨x, hd, b, y⟩
  · exact nofun
  · intro g m v hc
    cases hc
    exact h x n u rfl
  · exact nofun

namespace AgreesBut

variable {s : State}

/-- The item leaves the Outbox, its hold let go (R144, R155). -/
theorem removeOrigin {i : Nat} (h : AgreesBut (.origin i) s) (o : OriginItem) : (removeOrigin i o s).GrantAgrees := by
  refine (grantAgrees_iff _).2 ⟨fun g => ?_, inRange_shift h.range i⟩
  rw [ownedRole_removeOrigin, h.others _ (unshift_ne i g)]
  exact (role_shift _ i h.free g).symm

theorem fileReport {i : Nat} (h : AgreesBut (.origin i) s) (o : OriginItem) : (fileReport i o s).GrantAgrees :=
  AgreesBut.removeOrigin (s := { s with reports := s.reports ++ [o.report] }) ⟨h.others, h.free, h.range⟩ o

/-- The item comes to rest in the Outbox. -/
theorem updateOrigin {i : Nat} (h : AgreesBut (.origin i) s) {f : OriginItem → OriginItem}
    (hf : ∀ o, (f o).state.role = .resting) : (updateOrigin i f s).GrantAgrees := by
  have hothers (x : Granted) (hx : x ≠ .origin i) : ownedRole (Machine.updateOrigin i f s) x = ownedRole s x := by
    rw [ownedRole_updateOrigin, if_neg hx]
  have hbut : AgreesBut (.origin i) (Machine.updateOrigin i f s) :=
    ⟨fun x hx => (hothers x hx).trans (h.others x hx), h.free, h.range⟩
  refine hbut.agrees ?_
  rw [ownedRole_updateOrigin, if_pos rfl]
  cases s.outbox[i]? with
  | none => rfl
  | some o => exact hf o

/-- The item's report is filed, or the item waits for its report (R155). -/
theorem makeReport {i : Nat} (h : AgreesBut (.origin i) s) : (makeReport i s).GrantAgrees := by
  unfold Machine.makeReport
  split
  · next hnone => exact h.agrees (by rw [ownedRole, hnone]; rfl)
  · split
    · exact h.fileReport _
    · exact h.updateOrigin fun _ => rfl

/-- The item's repeat ends (R150). -/
theorem endRepeat {i : Nat} (h : AgreesBut (.origin i) s) (sent : Bool) : (endRepeat sent i s).GrantAgrees := by
  unfold Machine.endRepeat
  split
  · next hnone => exact h.agrees (by rw [ownedRole, hnone]; rfl)
  · next o _ =>
    have hcounted : AgreesBut (.origin i) (if sent then count .originsSent s else s) := by
      cases sent
      · exact h
      · exact ⟨h.others, h.free, h.range⟩
    dsimp only
    split
    · exact AgreesBut.updateOrigin (s := State.drawn _) ⟨hcounted.others, hcounted.free, hcounted.range⟩ fun _ => rfl
    · split
      · exact hcounted.updateOrigin fun _ => rfl
      · refine AgreesBut.makeReport ⟨fun x hx => ?_, hcounted.free, hcounted.range⟩
        rw [ownedRole_updateOrigin, if_neg hx]
        exact hcounted.others x hx

/-- The relay item is removed (R116, R120). -/
theorem dropRelay {i : Nat} (h : AgreesBut (.relay i) s) (item : RelayItem) : (dropRelay i item s).GrantAgrees := by
  refine (grantAgrees_iff _).2 ⟨fun g => ?_, by rw [dropRelay_transmit]; exact h.range⟩
  rw [ownedRole_dropRelay, dropRelay_transmit]
  split
  · next hg => rw [hg, h.free]
  · next hg => exact h.others g hg

end AgreesBut

/-! ## The Transmit Controller's operations -/

namespace State.GrantAgrees

variable {s : State} (h : s.GrantAgrees)
include h

theorem role_eq (g : Granted) : ownedRole s g = s.transmit.controller.role g := ((grantAgrees_iff s).1 h).1 g

/-- The agreement reads the roles of the items and the controller alone. -/
theorem congr {t : State} (ho : ownedRole t = ownedRole s) (hc : t.transmit.controller = s.transmit.controller) :
    t.GrantAgrees := by
  refine (grantAgrees_iff t).2 ⟨fun g => ?_, by rw [hc]; exact h.backoff⟩
  rw [ho, hc]
  exact h.role_eq g

theorem setPort (p : Port) : (setPort p s).GrantAgrees := h.congr rfl rfl

theorem setLine (l : Line) : (setLine l s).GrantAgrees := h.congr rfl rfl

theorem setView (m : Medium) : ({ s with transmit := { s.transmit with view := m } } : State).GrantAgrees :=
  h.congr rfl rfl

/-- A controller that gives the same roles. -/
theorem setController {c : Controller} (hrole : ∀ g, c.role g = s.transmit.controller.role g) (hc : c.InRange) :
    (setController c s).GrantAgrees :=
  (grantAgrees_iff _).2 ⟨fun g => (h.role_eq g).trans (hrole g).symm, hc⟩

end State.GrantAgrees

namespace State.GrantAgrees

variable {s : State} (h : s.GrantAgrees)
include h

/-- The granted item is abandoned (R132). -/
theorem abandon {g : Granted} (hg : s.transmit.controller.role g ≠ .resting) : (abandon g s).GrantAgrees := by
  have hbut : AgreesBut g (Machine.setController .idle (count .transmissionsAbandoned s)) :=
    agreesBut_setController_idle (s := count .transmissionsAbandoned s) (h.congr rfl rfl) hg
  unfold Machine.abandon
  cases g with
  | relay i =>
    dsimp only
    split
    · exact hbut.dropRelay _
    · next hnone => exact hbut.agrees (by rw [ownedRole, hnone]; rfl)
  | origin i => exact hbut.endRepeat false

theorem addDeferral (g : Granted) : (addDeferral g s).GrantAgrees := by
  cases g with
  | relay i => exact h.congr (ownedRole_updateRelay_same s i fun _ _ => rfl) rfl
  | origin i => exact h.congr (ownedRole_updateOrigin_same s i fun _ _ => rfl) rfl

/-- One deferral of the granted item (R131, R132). -/
theorem deferGranted {g : Granted} (hg : s.transmit.controller.role g ≠ .resting) : (deferGranted g s).GrantAgrees := by
  unfold Machine.deferGranted
  dsimp only
  split
  · exact (h.addDeferral g).abandon (by rw [addDeferral_transmit]; exact hg)
  · exact h.addDeferral g

end State.GrantAgrees

/-- A READY item granted, or a SENDING item refused, is CONTENDING (R129, R135). -/
theorem ownedRole_markContending {g : Granted} {s : State} (hg : isReady s g ∨ isSending s g) (x : Granted) :
    ownedRole (markContending g s) x = if x = g then .contending else ownedRole s x := by
  cases g with
  | relay i =>
    rw [markContending, ownedRole_updateRelay]
    refine if_congr Iff.rfl ?_ rfl
    rcases hg with ⟨r, t, hr, ht⟩ | ⟨r, t, hr, ht⟩ <;> simp [hr, ht, RelayState.contend, RelayState.role]
  | origin i =>
    rw [markContending, ownedRole_updateOrigin]
    refine if_congr Iff.rfl ?_ rfl
    rcases hg with ⟨o, t, ho, ht⟩ | ⟨o, t, ho, ht⟩ <;> simp [ho, ht, OriginState.contend, OriginState.role]

/-- A CONTENDING item handed over is SENDING (R133). -/
theorem ownedRole_markSending {g : Granted} {s : State} (hg : isContending s g) (x : Granted) :
    ownedRole (markSending g s) x = if x = g then .sending else ownedRole s x := by
  cases g with
  | relay i =>
    rw [markSending, ownedRole_updateRelay]
    refine if_congr Iff.rfl ?_ rfl
    obtain ⟨r, t, hr, ht⟩ := hg
    simp [hr, ht, RelayState.send, RelayState.role]
  | origin i =>
    rw [markSending, ownedRole_updateOrigin]
    refine if_congr Iff.rfl ?_ rfl
    obtain ⟨o, t, ho, ht⟩ := hg
    simp [ho, ht, OriginState.send, OriginState.role]

/-- An item becomes CONTENDING as its backoff is drawn, where no other item has a role (R129, R135). -/
theorem grantAgrees_drawBackoff {g : Granted} {s : State} (hothers : ∀ x, x ≠ g → ownedRole s x = .resting)
    (hg : isReady s g ∨ isSending s g) : (drawBackoff g (markContending g s)).GrantAgrees := by
  refine (grantAgrees_iff _).2 ⟨fun x => ?_, fun y n u hc => ?_⟩
  · show ownedRole (markContending g s) x = if x = g then .contending else .resting
    rw [ownedRole_markContending hg]
    split
    · rfl
    · next hx => exact hothers x hx
  · cases hc
    have := nextDraw_backoff_lt (markContending g s) (grantedUrgent (markContending g s) g)
    constructor
    · split at this <;> omega
    · exact Nat.zero_le _

theorem drawBackoff_role (g : Granted) (s : State) :
    (drawBackoff g (markContending g s)).transmit.controller.role g ≠ .resting := by
  simp [Controller.role]

theorem controllerAfter_role (k : Nat) (s : State) (g : Granted) :
    (controllerAfter k s).role g = s.transmit.controller.role g := by
  unfold controllerAfter
  split
  · next hc => rw [hc]
  · next hc => rw [hc]; split <;> rfl
  · next hc => rw [hc]
  · next hc => rw [hc]; rfl

/-- A RESTART empties both owners and the controller (R106, R125, R141). -/
theorem grantAgrees_restartPart (s : State) : (restartPart s).GrantAgrees := by
  refine (grantAgrees_iff _).2 ⟨fun g => ?_, nofun⟩
  cases g with
  | relay i =>
    simp only [ownedRole, relayAt, restartPart, List.getD_eq_getElem?_getD, List.getElem?_replicate]
    split <;> rfl
  | origin i => rfl

theorem grantAgrees_resetPart (s : State) : (resetPart s).GrantAgrees := by
  refine (grantAgrees_iff _).2 ⟨fun g => ?_, nofun⟩
  cases g with
  | relay i =>
    simp only [ownedRole, relayAt, resetPart, State.reset, List.getD_eq_getElem?_getD, List.getElem?_replicate]
    split <;> rfl
  | origin i => rfl

namespace State.GrantAgrees

variable {s : State} (h : s.GrantAgrees)
include h

/-- A grant in IDLE, where no item has a role (R127, R129). -/
theorem grant : (grant s).GrantAgrees := by
  unfold Machine.grant
  split
  · next hidle =>
    split
    · next g hg =>
      have hothers (x : Granted) (_ : x ≠ g) : ownedRole s x = .resting := by rw [h.role_eq, hidle]; rfl
      have hdrawn := grantAgrees_drawBackoff hothers (.inl (isReady_of_arbitrate s g hg))
      unfold grantItem
      dsimp only
      split
      · exact hdrawn.deferGranted (drawBackoff_role g s)
      · exact hdrawn
    · exact h
  · exact h

/-- A copy handed over: the CONTENDING item is SENDING (R133). -/
theorem handCopyOver {g : Granted} {n u : Nat} (hc : s.transmit.controller = .backoff g n u) (k : Key) (i : Identity)
    (hops slot : Nat) : (handCopyOver g k i hops slot s).GrantAgrees := by
  refine (grantAgrees_iff _).2 ⟨fun x => ?_, nofun⟩
  show ownedRole (markSending g s) x = if x = g then .sending else .resting
  rw [ownedRole_markSending ((h.contending g).2 ⟨n, u, hc⟩)]
  split
  · rfl
  · next hx => rw [h.role_eq, hc]; exact if_neg hx

/-- A backoff completes: the item is suppressed or SENDING (R117, R133). -/
theorem backoffCompletion : (backoffCompletion s).GrantAgrees := by
  unfold Machine.backoffCompletion
  split
  · next g u hc =>
    have hrole : s.transmit.controller.role g ≠ .resting := by rw [hc]; simp [Controller.role]
    have hbut := agreesBut_setController_idle h hrole
    split
    · split
      · next i =>
        split
        · next r _ =>
          split
          · exact (hbut.dropRelay r).congr rfl rfl
          · exact h.handCopyOver hc _ _ _ _
        · next hnone =>
          have hnone' : relayAt (Machine.setController .idle s) i = none := hnone
          exact hbut.agrees (by rw [ownedRole, hnone']; rfl)
      · split
        · exact h.handCopyOver hc _ _ _ _
        · next hnone => exact hbut.agrees (by rw [ownedRole, setController_outbox, hnone]; rfl)
    · exact h
  · exact h

theorem nextCheck : (nextCheck s).GrantAgrees := by
  unfold Machine.nextCheck
  split
  · exact h.grant
  · exact h.backoffCompletion

theorem takeChecks (n : Nat) : (takeChecks n s).GrantAgrees := by
  induction n generalizing s with
  | zero => exact h
  | succ n ih => exact ih h.nextCheck

/-- A report of the medium: BUSY costs a backoff its partial slot and a deferral (R26, R131). -/
theorem reportMedium (m : Medium) : (reportMedium m s).GrantAgrees := by
  unfold Machine.reportMedium
  dsimp only
  split
  · next g c u hc =>
    refine ((h.setView .busy).setController (fun x => ?_) fun y n v hy => ?_).deferGranted ?_
    · rw [hc]
      rfl
    · cases hy
      exact ⟨(h.backoff g c u hc).1, Nat.zero_le _⟩
    · simp [Controller.role]
  · exact h.setView _

theorem setMedium (m : Medium) : (setMedium m s).GrantAgrees := by
  unfold Machine.setMedium
  split
  · exact h
  · exact (h.setLine _).reportMedium m

/-- The slot timer stops at 64 (R130; log 10). -/
theorem controllerAfter_inRange (k : Nat) : (controllerAfter k s).InRange := by
  intro g n u hafter
  unfold controllerAfter at hafter
  split at hafter
  · cases hafter
  · next x m v hc =>
    have hbound := h.backoff x m v hc
    split at hafter
    · cases hafter
      exact ⟨hbound.1, Nat.min_le_left _ _⟩
    · cases hafter
      exact hbound
  · cases hafter
  · cases hafter

/-- The stream and the slot timer move, the granted item stays (R130, R139). -/
theorem advance (n : Nat) : (advance n s).GrantAgrees := by
  unfold Machine.advance
  split
  · exact h
  · split
    · exact h.congr rfl rfl
    · refine State.GrantAgrees.congr
        (h.setController (c := controllerAfter (ticksWithin s n) s) (fun g => ?_) (h.controllerAfter_inRange _)) rfl rfl
      exact controllerAfter_role _ s g

/-! ## The commands -/

theorem live {f : State → State} (hf : (f s).GrantAgrees) : (Machine.live f s).GrantAgrees := by
  unfold Machine.live
  split
  · exact h
  · exact hf.congr rfl rfl

theorem assemble (ev : LineEvent) : (assemble ev s).GrantAgrees :=
  h.congr (ownedRole_assemble s ev) (by rw [assemble_transmit])

theorem runToTick (tick : Nat) : (runToTick tick s).GrantAgrees := h.advance _

theorem runToMilli (d : Millis) : (runToMilli d s).GrantAgrees := h.advance _

theorem risingEdge : (risingEdge s).GrantAgrees := by
  unfold Machine.risingEdge
  split
  · exact ((h.runToTick _).setLine _).setMedium .busy
  · exact h

theorem fallingEdge (n : Nat) : (fallingEdge n s).GrantAgrees := by
  unfold Machine.fallingEdge
  split
  · exact ((h.runToTick _).setLine _).assemble _
  · exact h

theorem endSpace : (endSpace s).GrantAgrees := by
  unfold Machine.endSpace
  split
  · have hordered : s.ordered.GrantAgrees := h.congr rfl rfl
    exact ((hordered.setMedium .idle).takeChecks _).assemble .silence
  · exact (h.assemble .silence).setMedium .idle

theorem silence : (silence s).GrantAgrees := by
  unfold Machine.silence
  split
  · dsimp only
    split
    · exact ((h.runToTick _).setLine _).setMedium .idle
    · exact ((h.runToTick _).setLine _).endSpace
  · exact h

theorem blindingEnd : (blindingEnd s).GrantAgrees := by
  unfold Machine.blindingEnd
  split
  · exact (h.runToTick _).setLine _
  · exact h

theorem slotEnd : (slotEnd s).GrantAgrees := by
  unfold Machine.slotEnd
  split
  · next g c u hc =>
    split
    · refine (h.runToTick _).setController (fun x => ?_) fun y n w hy => ?_
      · obtain ⟨v, hv⟩ := advance_controller_backoff s (periodsToTick s (s.line.tick + (Config.slotTicks - u))) hc
        rw [Machine.runToTick, hv]
        rfl
      · cases hy
        have := (h.backoff g (c + 1) u hc).1
        omega
    · exact h
  · exact h

/-- A hand-over taken keeps the item SENDING; one refused makes it CONTENDING again (R135). -/
theorem handOver : (handOver s).GrantAgrees := by
  unfold Machine.handOver
  split
  · next g hd b hc =>
    split
    · unfold startTransmission
      refine State.GrantAgrees.setMedium (State.GrantAgrees.setLine (h.setController (fun x => ?_) ?_) _) .busy
      · rw [hc]
        rfl
      · exact fun _ _ _ h => nomatch h
    · have hrole : s.transmit.controller.role g ≠ .resting := by rw [hc]; simp [Controller.role]
      have hothers (x : Granted) (hx : x ≠ g) : ownedRole s x = .resting := (h.role_eq x).trans (role_of_ne hrole hx)
      have hdrawn := grantAgrees_drawBackoff hothers (.inr ((h.sending g).2 ⟨hd, b, _, hc⟩))
      exact (hdrawn.setView .busy).deferGranted (drawBackoff_role g s)
  · exact h

/-- A copy sent to its end is handed back (R120, R140, R150). -/
theorem handBackSent {g : Granted} (hg : s.transmit.controller.role g ≠ .resting) : (handBackSent g s).GrantAgrees := by
  have hbut := agreesBut_setController_idle h hg
  unfold Machine.handBackSent
  cases g with
  | relay i =>
    dsimp only
    split
    · next r _ => exact (hbut.dropRelay r).congr rfl rfl
    · next hnone => exact hbut.agrees (by rw [ownedRole, hnone]; rfl)
  | origin i => exact hbut.endRepeat true

theorem transmissionComplete : (transmissionComplete s).GrantAgrees := by
  unfold Machine.transmissionComplete
  split
  · next g hd b e k hc =>
    refine ((h.runToTick _).setLine _).handBackSent ?_
    obtain ⟨e', k', hrun⟩ := advance_controller_accepted s
      (periodsToTick s (s.line.tick + (txCopy s g hd b).remaining (txCopy s g hd b).elementBound e k)) hc
    rw [setLine_transmit, Machine.runToTick, hrun]
    simp [Controller.role]
  · exact h

/-- The hold-off expiry of a relay item in HOLDING: suppressed or READY (R115). -/
theorem relayHoldOffExpiry (i : Nat) : (relayHoldOffExpiry i s).GrantAgrees := by
  unfold Machine.relayHoldOffExpiry
  split
  · exact h
  · next r hr =>
    split
    · next hst =>
      have hrest (d : Millis) : ownedRole (Machine.runToMilli d s) (.relay i) = .resting := by
        rw [ownedRole, runToMilli_relayAt, hr, Option.map_some, hst]
        rfl
      dsimp only
      split
      · exact ((agreesBut_of_resting (h.runToMilli _) (hrest _)).dropRelay r).congr rfl rfl
      · refine (h.runToMilli _).congr (ownedRole_updateRelay_same _ i fun x hx => ?_) rfl
        rw [runToMilli_relayAt, hr] at hx
        cases hx
        rw [hst]
        rfl
    · exact h

/-- The hold-off expiry of an origin item in HOLDING (R151). -/
theorem originHoldOffExpiry (i : Nat) : (originHoldOffExpiry i s).GrantAgrees := by
  unfold Machine.originHoldOffExpiry
  split
  · exact h
  · next o ho =>
    split
    · next d hst =>
      refine (h.runToMilli d).congr (ownedRole_updateOrigin_same _ i fun x hx => ?_) rfl
      rw [runToMilli_outbox, ho] at hx
      cases hx
      rw [hst]
      rfl
    · exact h

/-- The echo deadline of an origin item in ECHO_WAIT (R153). -/
theorem echoDeadline (i : Nat) : (echoDeadline i s).GrantAgrees := by
  unfold Machine.echoDeadline
  split
  · exact h
  · next o ho =>
    split
    · next d hst =>
      refine AgreesBut.makeReport (agreesBut_of_resting (h.runToMilli d) ?_)
      rw [ownedRole, runToMilli_outbox, ho, Option.map_some, hst]
      rfl
    · exact h

/-- The head of the Report Queue removed, and the first REPORT_PENDING item filed (R155, R156). -/
theorem removeReport : (removeReport s).GrantAgrees := by
  have hhead : ({ s with reports := s.reports.tail } : State).GrantAgrees := h.congr rfl rfl
  unfold Machine.removeReport
  dsimp only
  split
  · split
    · exact hhead
    · next i hi =>
      split
      · exact hhead
      · next o ho =>
        refine AgreesBut.fileReport (agreesBut_of_resting hhead ?_) o
        obtain ⟨hlt, hst, -⟩ := List.findIdx?_eq_some_iff_getElem.1 hi
        obtain rfl : s.outbox[i] = o := by
          rw [List.getElem?_eq_getElem hlt] at ho
          exact Option.some.inj ho
        have hpending := beq_iff_eq.1 hst
        rw [ownedRole, ho, Option.map_some, hpending]
        rfl
  · exact hhead

theorem commitResponse (r : Response) : (commitResponse r s).GrantAgrees := by
  unfold Machine.commitResponse
  split
  · exact h
  · split
    · exact h.congr (ownedRole_congr (by simp) (by simp)) (by simp)
    · exact h
  · split
    · exact h.removeReport
    · exact h
  · exact h.congr rfl rfl

theorem finishResponse (r : Response) : (finishResponse r s).GrantAgrees := (h.setPort _).commitResponse r

theorem clockToEnd (kind : Commit) : (clockToEnd kind s).GrantAgrees := by
  unfold Machine.clockToEnd
  split
  · split
    · exact (h.setPort _).finishResponse _
    · exact h
  · exact h

/-- The takes: a SUBMIT adds an item without a role, a RESTART empties the owners, the others leave them
(R147, R169). -/
theorem takeRequest (r : Request) : (takeRequest r s).GrantAgrees := by
  have hanswer (st : Status) : (answer st s).GrantAgrees := h.setPort _
  have hgo (take : State → State) (ht : (take s).GrantAgrees) : (whenConfigured take s).GrantAgrees := by
    unfold whenConfigured
    split
    · exact hanswer _
    · exact ht
  cases r with
  | configure p => exact h.congr (ownedRole_congr (takeConfigure_relays s p) (takeConfigure_outbox s p)) (by
      rw [Machine.takeRequest, takeConfigure_transmit])
  | submit p =>
    refine hgo _ ?_
    unfold takeSubmit
    split
    · exact hanswer _
    · split
      · have haccept : (acceptSubmit p s).GrantAgrees := h.congr (ownedRole_acceptSubmit s p) (by simp)
        exact haccept.setPort _
      · exact hanswer _
  | collectMessage => exact hgo _ (h.congr (ownedRole_congr (by simp) (by simp)) (by simp))
  | collectReport => exact hgo _ (h.congr (ownedRole_congr (by simp) (by simp)) (by simp))
  | readStatus => exact h.setPort _
  | readCounters c => exact h.congr (ownedRole_congr (takeReadCounters_relays s c) (takeReadCounters_outbox s c)) (by
      rw [Machine.takeRequest, takeReadCounters_transmit])
  | clearEvents m => exact hgo _ (h.congr (ownedRole_congr (by simp) (by simp)) (by simp))
  | restart => exact hgo (fun s => answer .ok (Machine.restartPart s)) ((grantAgrees_restartPart s).setPort _)
  | malformed bs => exact hanswer _

theorem hostRequest (r : Request) : (hostRequest r s).GrantAgrees := by
  unfold Machine.hostRequest
  split
  · exact (h.setPort _).takeRequest r
  · exact h

theorem byteComplete (b : Byte) : (byteComplete b s).GrantAgrees := by
  unfold Machine.byteComplete
  split
  · exact h.setPort _
  · unfold requestByte
    dsimp only
    split
    · exact (h.setPort _).takeRequest _
    · exact h.setPort _
  · unfold responseByte
    split
    · exact h
    · dsimp only
      split
      · exact (h.setPort _).finishResponse _
      · exact h.setPort _
  · exact h.setPort _

theorem rstnReset : (rstnReset s).GrantAgrees := by
  unfold Machine.rstnReset
  split
  · exact h.congr rfl rfl
  · exact grantAgrees_resetPart _

theorem rstnRelease : (rstnRelease s).GrantAgrees := by
  unfold Machine.rstnRelease
  dsimp only
  split <;> exact h.congr rfl rfl

theorem decodeCompletion : (decodeCompletion s).GrantAgrees := by
  unfold Machine.decodeCompletion
  split
  · exact h
  · next d _ =>
    have hrun : (runToPeriod d.completion s).GrantAgrees := h.advance _
    dsimp only
    split
    · exact hrun.congr (ownedRole_decodeSuccess _ _ _) (by rw [decodeSuccess_transmit])
    · exact hrun.congr (ownedRole_congr (by simp) (by simp)) (by simp)

theorem entryDeadline (i : Nat) : (entryDeadline i s).GrantAgrees := by
  unfold Machine.entryDeadline
  split
  · exact h
  · split
    · exact h
    · next e _ _ =>
      dsimp only
      split
      · exact (h.runToMilli e.deadline).congr (ownedRole_congr (by simp) (by simp)) (by simp)
      · exact (h.runToMilli e.deadline).congr rfl rfl

theorem listenExpiry : (listenExpiry s).GrantAgrees := by
  unfold Machine.listenExpiry
  split
  · next d _ _ =>
    refine (h.runToMilli d).congr ?_ rfl
    rw [← ownedRole_release (Machine.runToMilli d s) (Machine.runToMilli d s).station.milliTimer]
    exact ownedRole_congr rfl rfl
  · exact h

theorem clockPeriod : (clockPeriod s).GrantAgrees := by
  have hpins : (takePins s).GrantAgrees := h.congr rfl rfl
  have hrun := hpins.advance 1
  unfold Machine.clockPeriod
  dsimp only
  split
  · exact hrun
  · refine State.GrantAgrees.setPort ?_ _
    unfold sampleLine
    split
    · exact hrun
    · exact hrun.setLine _

end State.GrantAgrees

/-- Every command keeps controller and owners in agreement. -/
theorem grantAgrees_exec (c : Instr) (s t : State) (h : s.GrantAgrees) (ht : exec c s = .next t) : t.GrantAgrees := by
  have hpins (p : Pins) : ({ s with pins := p } : State).GrantAgrees := h.congr rfl rfl
  cases c with
  | powerOn => cases ht; exact grantAgrees_resetPart s
  | rstnReset => cases ht; exact h.rstnReset
  | rstnRelease => cases ht; exact h.rstnRelease
  | risingEdge => cases ht; exact (hpins _).live (hpins _).risingEdge
  | fallingEdge n => cases ht; exact (hpins _).live ((hpins _).fallingEdge _)
  | silence => cases ht; exact h.live h.silence
  | blindingEnd => cases ht; exact h.live h.blindingEnd
  | slotEnd => cases ht; exact h.live h.slotEnd
  | backoffCompletion => cases ht; exact h.live h.backoffCompletion
  | handOver => cases ht; exact h.live h.handOver
  | transmissionComplete => cases ht; exact h.live h.transmissionComplete
  | grant => cases ht; exact h.live h.grant
  | decoderTake => cases ht; exact h.live (h.congr (ownedRole_congr (by simp) (by simp)) (by simp))
  | decodeCompletion => cases ht; exact h.live h.decodeCompletion
  | entryDeadline i => cases ht; exact h.live (h.entryDeadline i)
  | relayHoldOffExpiry i => cases ht; exact h.live (h.relayHoldOffExpiry i)
  | originHoldOffExpiry i => cases ht; exact h.live (h.originHoldOffExpiry i)
  | echoDeadline i => cases ht; exact h.live (h.echoDeadline i)
  | listenExpiry => cases ht; exact h.live h.listenExpiry
  | csnFall =>
    cases ht
    have hpin : (setCsn false s).GrantAgrees := h.congr rfl rfl
    refine hpin.live ?_
    split
    · exact hpin.setPort _
    · exact hpin
  | csnRise =>
    cases ht
    have hpin : (setCsn true s).GrantAgrees := h.congr rfl rfl
    exact hpin.live (hpin.setPort _)
  | configure _ | submit _ | collectMessage | collectReport | readStatus | readCounters _ | clearEvents _ | restart
  | malformedRequest _ => cases ht; exact h.live (h.hostRequest _)
  | byteComplete b => cases ht; exact h.live (h.byteComplete b)
  | collectMessageFinalByte | collectReportFinalByte | readCountersFinalByte =>
    cases ht; exact h.live (h.clockToEnd _)

/-- Settles O56: the medium's agreement and the grant's are each kept by every command and by a REFCLK period. -/
theorem stepKeepsTheMediumAgreement : Obligations.StepKeepsTheMediumAgreement := fun _ _ ht =>
  ⟨fun h => step_keeps (P := State.MediumAgrees) mediumAgrees_exec (fun _ h => mediumAgrees_clockPeriod h)
      (fun _ _ h => h.congr rfl) (fun _ h => h.congr rfl) h ht,
    fun h => step_keeps (P := State.GrantAgrees) grantAgrees_exec (fun _ h => h.clockPeriod)
      (fun _ _ h => h.congr rfl rfl) (fun _ h => h.congr rfl rfl) h ht⟩

end Sys2Proof.Machine
end

section
/-! PROOFS. Time: what n REFCLK periods do, the moments that time reaches, the order of deadlines (O5, O6). -/

namespace Sys2Proof.Machine

/-! ## The stream of a copy (R28, R139) -/

/-- A position still within its element stays in it. -/
theorem streamAt_within (c : TxCopy) (e : Element) (j k : Nat)
    (h : j + k < (elementParts c e).1 + (elementParts c e).2) : streamAt c e j k = (e, j + k) := by
  rw [← elementTicks_eq] at h
  obtain ⟨b, hb⟩ : ∃ b, c.elementBound = b + 1 := ⟨_, rfl⟩
  have hgo : e ≠ .finished := fun hf => by subst hf; exact Nat.not_lt_zero _ h
  rw [streamAt, hb, TxCopy.run, if_neg hgo, if_pos h]

theorem streamAt_finished (c : TxCopy) (j k : Nat) : streamAt c .finished j k = (.finished, 0) := rfl

/-- The last tick of an element past, the next element begins. -/
theorem streamAt_next (c : TxCopy) (e : Element) (j k : Nat) (hgo : e ≠ .finished)
    (h : j + k = (elementParts c e).1 + (elementParts c e).2) : streamAt c e j k = (elementAfter c e, 0) := by
  rw [← elementTicks_eq] at h
  obtain ⟨b, hb⟩ : ∃ b, c.elementBound = b + 2 := ⟨_, rfl⟩
  rw [streamAt, hb, TxCopy.run, if_neg hgo, if_neg (by omega), h, Nat.sub_self, nextElement_eq_elementAfter, TxCopy.run]
  split
  · next hf => rw [hf]
  · next hf => rw [if_pos (elementTicks_pos c _ hf)]

theorem streamMoves (c : TxCopy) : StreamMoves c where
  within := streamAt_within c
  next := streamAt_next c
  finished := streamAt_finished c
  further := fun e j k l => run_add c c.elementBound e j k l (elementsLeft_le_bound c e)

/-- LED_OUT at a position of the stream (R27). -/
theorem led_eq_carrierAt (c : TxCopy) (e : Element) (t : Nat) : c.led e t = carrierAt c (e, t) := by
  rw [TxCopy.led, carrierAt, markTicks_eq, Bool.decide_and]

/-! ## REFCLK periods -/

/-- What `n` REFCLK periods do to a part that RSTn does not hold (R17, R163). -/
theorem advance_of_pos {n : Nat} {s : State} (hn : 0 < n) (hh : s.station.held = false) :
    advance n s =
      { s with
        refclk := s.refclk + n
        station := s.station.after n
        line := { s.line.after (ticksWithin s n) with
          tickPhase := tickPhaseAfter s n
          ledOut := ledFor s (controllerAfter (ticksWithin s n) s) }
        transmit := { s.transmit with controller := controllerAfter (ticksWithin s n) s } } := by
  rw [advance, if_neg (Nat.ne_of_gt hn), hh, if_neg (by decide)]

/-- The controller and LED_OUT with the stream and the slot timer some ticks on, by the controller's state. -/
theorem controllerAfter_cases (k : Nat) (s : State) :
    let after := controllerAfter k s
    let led := ledFor s after
    (s.transmit.controller = .idle → after = .idle ∧ led = false)
    ∧ (∀ g c u, s.transmit.controller = .backoff g c u →
      after = .backoff g c (if s.transmit.view = .idle ∧ 0 < c then min 64 (u + k) else u) ∧ led = false)
    ∧ (∀ g h b, s.transmit.controller = .sending g h b .pending → after = .sending g h b .pending ∧ led = false)
    ∧ (∀ g h b e j, s.transmit.controller = .sending g h b (.accepted e j) →
      let now := streamAt (txCopy s g h b) e j k
      after = .sending g h b (.accepted now.1 now.2) ∧ led = carrierAt (txCopy s g h b) now) := by
  refine ⟨fun hc => ?_, fun g c u hc => ?_, fun g h b hc => ?_, fun g h b e j hc => ?_⟩
  · simp [controllerAfter, hc, ledFor]
  · by_cases hrun : s.transmit.view = .idle ∧ 0 < c
    · simp [controllerAfter, hc, hrun, ledFor]
    · simp only [controllerAfter, hc, if_neg hrun, ledFor, and_self]
  · simp [controllerAfter, hc, ledFor]
  · simp only [controllerAfter, hc, ledFor, led_eq_carrierAt]
    exact ⟨rfl, rfl⟩

/-- Settles O5: the periods run the timers, the slot timer and the stream, and the stream moves as R28 and R139 say. -/
theorem timeRunsByPeriods : Obligations.TimeRunsByPeriods := by
  refine ⟨fun n s hh => ⟨?_, ?_, ?_, ?_, fun hn => ?_⟩, streamMoves⟩
  · rintro rfl
    exact advance_zero s
  · intro hu
    simp [ConfigRecord.tickPeriods, hu]
  · intro hu
    simp [ConfigRecord.tickPeriods, hu]
  · intro hu
    simp [ConfigRecord.tickPeriods, hu]
  · exact ⟨_, _, advance_of_pos hn hh, controllerAfter_cases (ticksWithin s n) s⟩

/-! ## The moment that time reaches (log 2) -/

/-- A tick is a number of REFCLK periods (R17). -/
theorem tickPeriods_pos (c : ConfigRecord) : 0 < c.tickPeriods := by
  unfold ConfigRecord.tickPeriods
  split <;> decide

theorem runToTick_tick {s : State} {T : Nat} (hh : s.station.held = false) (hp : s.line.phase ≠ .off)
    (hphase : s.line.tickPhase < s.cfg.tickPeriods) (hT : s.line.tick ≤ T) : (runToTick T s).line.tick = T := by
  rcases Nat.eq_or_lt_of_le hT with rfl | hlt
  · simp [runToTick, periodsToTick]
  · have hperiods : s.cfg.tickPeriods ≤ (T - s.line.tick) * s.cfg.tickPeriods := Nat.le_mul_of_pos_left _ (by omega)
    have hpos : 0 < periodsToTick s T := by unfold periodsToTick; omega
    have hsum : s.line.tickPhase + periodsToTick s T = (T - s.line.tick) * s.cfg.tickPeriods := by
      unfold periodsToTick; omega
    rw [runToTick, advance_of_pos hpos hh]
    show s.line.tick + ticksWithin s (periodsToTick s T) = T
    rw [ticksWithin, if_neg hp, hsum, Nat.mul_div_cancel _ (tickPeriods_pos _)]
    omega

theorem runToTick_past {s : State} {T : Nat} (hT : T ≤ s.line.tick) : runToTick T s = s := by
  have hnone : periodsToTick s T = 0 := by
    rw [periodsToTick, Nat.sub_eq_zero_of_le hT, Nat.zero_mul, Nat.zero_sub]
  rw [runToTick, hnone, advance_zero]

theorem runToMilli_timer {s : State} {d : Millis} (hh : s.station.held = false)
    (hphase : s.station.milliPhase < 16000) (hd : ¬ Reached s.station.milliTimer d) :
    (runToMilli d s).station.milliTimer = d ∧ (runToMilli d s).station.milliPhase = 0 := by
  have hahead : 0 < distanceAhead s.station.milliTimer d := by
    unfold Reached at hd
    unfold distanceAhead
    omega
  have hperiods : periodsToMilli s d = distanceAhead s.station.milliTimer d * 16000 - s.station.milliPhase := by
    rw [periodsToMilli, if_pos ((toCome_iff_not_reached _ _).2 hd)]
  have hsum : s.station.milliPhase + periodsToMilli s d = distanceAhead s.station.milliTimer d * 16000 := by omega
  rw [runToMilli, advance_of_pos (by omega) hh]
  show s.station.milliTimer + BitVec.ofNat 32 ((s.station.milliPhase + periodsToMilli s d) / 16000) = d
    ∧ (s.station.milliPhase + periodsToMilli s d) % 16000 = 0
  rw [hsum]
  refine ⟨?_, Nat.mul_mod_left _ _⟩
  rw [Nat.mul_div_cancel _ (by decide), distanceAhead, BitVec.ofNat_toNat, BitVec.setWidth_eq, BitVec.add_comm,
    BitVec.sub_add_cancel]

theorem runToMilli_reached {s : State} {d : Millis} (hd : Reached s.station.milliTimer d) : runToMilli d s = s := by
  have hnone : periodsToMilli s d = 0 := by
    rw [periodsToMilli, if_neg fun h => (toCome_iff_not_reached _ _).1 h hd]
  rw [runToMilli, hnone, advance_zero]

theorem runToPeriod_refclk {s : State} {p : Nat} (hh : s.station.held = false) (hp : s.refclk ≤ p) :
    (runToPeriod p s).refclk = p := by
  rcases Nat.eq_or_lt_of_le hp with rfl | hlt
  · simp [runToPeriod]
  · rw [runToPeriod, advance_of_pos (by omega) hh]
    show s.refclk + (p - s.refclk) = p
    omega

theorem runToPeriod_past {s : State} {p : Nat} (hp : p ≤ s.refclk) : runToPeriod p s = s := by
  rw [runToPeriod, Nat.sub_eq_zero_of_le hp, advance_zero]

/-! ## The order of deadlines (R163, log 17) -/

theorem deadlineRank_toCome {now d : Millis} (hd : ¬ Reached now d) : deadlineRank now d = (d - now).toNat :=
  if_pos ((toCome_iff_not_reached now d).2 hd)

theorem deadlineRank_reached {now d : Millis} (hd : Reached now d) : deadlineRank now d = -((now - d).toNat : Int) :=
  if_neg fun h => (toCome_iff_not_reached now d).1 h hd

/-- Settles O6: time ends at the moment it runs to, or does not pass, and ranks follow the distances. -/
theorem timeReachesTheMoment : Obligations.TimeReachesTheMoment := by
  refine ⟨fun s hh => ⟨fun T => runToTick_tick hh, fun d => runToMilli_timer hh, fun p => runToPeriod_refclk hh⟩,
    fun s => ⟨fun T => runToTick_past, fun d => runToMilli_reached, fun p => runToPeriod_past⟩,
      fun now d e => ⟨?_, ?_, ?_⟩⟩
  · intro hd he
    rw [deadlineRank_toCome hd, deadlineRank_toCome he]
    omega
  · intro hd he
    rw [deadlineRank_reached hd, deadlineRank_toCome he]
    unfold Reached at he
    omega
  · intro hd he
    rw [deadlineRank_reached hd, deadlineRank_reached he]
    omega

end Sys2Proof.Machine
end

section
/-! PROOFS. The light line: marks and edges, the end of blinding, own transmissions (O9 to O12, O22, O27 to O29). -/

namespace Sys2Proof.Machine

/-! ## Marks (R21, R22) -/

theorem classifyMark_dataSymbol {t : Nat} (hmin : 8 ≤ t) (hmax : t ≤ 39) :
    classifyMark t = .dataSymbol (softValue t) := by
  rw [classifyMark, if_neg (by omega), if_pos (by omega)]

/-- Settles O9: the classes of R21 by the bounds of `classifyMark`, the values of R22 by those of `softValue`. -/
theorem markClassesAndSoftValues : Obligations.MarkClassesAndSoftValues := by
  intro t _
  have hvalue {soft : Nat} {c : Int} (h : softValue t = soft) (hc : confidenceOf soft = c) :
      softValue t = soft ∧ confidenceOf (softValue t) = c := ⟨h, h ▸ hc⟩
  refine ⟨fun hmax => ?_, fun hmin hmax => ?_, fun hmin hmax => ?_, fun hmin => ?_, fun hmin hmax =>
    ⟨softValue t, classifyMark_dataSymbol hmin hmax, fun _ _ => hvalue ?_ rfl, fun _ _ => hvalue ?_ rfl,
      fun _ _ => hvalue ?_ rfl, fun _ _ => hvalue ?_ rfl, fun _ _ => hvalue ?_ rfl, fun _ _ => hvalue ?_ rfl,
      fun _ _ => hvalue ?_ rfl, fun _ _ => hvalue ?_ rfl⟩⟩
  · rw [classifyMark, if_pos (by omega)]
  · rw [classifyMark, if_neg (by omega), if_neg (by omega), if_pos (by omega)]
  · rw [classifyMark, if_neg (by omega), if_neg (by omega), if_neg (by omega), if_pos (by omega)]
  · rw [classifyMark, if_neg (by omega), if_neg (by omega), if_neg (by omega), if_neg (by omega)]
  all_goals
    unfold softValue
    repeat' split
    all_goals omega

/-! ## The rising edge (R19, R20, R25) -/

/-- A report of BUSY with no backoff to interrupt moves the view alone (R26). -/
theorem reportMedium_busy_of_not_backoff {s : State} (h : ∀ g c u, s.transmit.controller ≠ .backoff g c u) :
    reportMedium .busy s = { s with transmit := { s.transmit with view := .busy } } := by
  rcases hc : s.transmit.controller with _ | ⟨g, c, u⟩ | ⟨g, hd, b, x⟩
  · simp only [reportMedium, hc]
  · exact absurd hc (h g c u)
  · simp only [reportMedium, hc]

/-- A report of BUSY during a backoff: the partial slot is lost and the item takes a deferral (R131). -/
theorem reportMedium_busy_of_backoff {s : State} {g : Granted} {c u : Nat}
    (hc : s.transmit.controller = .backoff g c u) :
    reportMedium .busy s = deferGranted g { s with transmit := ⟨.backoff g c 0, .busy⟩ } := by
  simp only [reportMedium, hc]
  rfl

/-- An IDLE medium turns BUSY, with no backoff to interrupt (R25, R26). -/
theorem setMedium_busy_of_idle {s : State} (hm : s.line.medium = .idle)
    (h : ∀ g c u, s.transmit.controller ≠ .backoff g c u) :
    setMedium .busy s =
      { s with line := { s.line with medium := .busy }, transmit := { s.transmit with view := .busy } } := by
  have h' : ∀ g c u, (setLine { s.line with medium := .busy } s).transmit.controller ≠ .backoff g c u := h
  rw [setMedium, if_neg (by rw [hm]; decide), reportMedium_busy_of_not_backoff h']
  rfl

/-- An edge on a medium BUSY already, or with no backoff to interrupt (R25, R26). -/
theorem setMedium_busy_of_not_backoff (s : State)
    (h : s.line.medium = .idle → ∀ g c u, s.transmit.controller ≠ .backoff g c u) :
    setMedium .busy s =
      { s with
        line := { s.line with medium := .busy }
        transmit := { s.transmit with view := if s.line.medium = .idle then .busy else s.transmit.view } } := by
  cases hm : s.line.medium with
  | busy => rw [setMedium, if_pos hm, if_neg (by decide), ← hm]
  | idle => rw [setMedium_busy_of_idle hm (h hm), if_pos rfl]

/-- The medium turns BUSY during a backoff (R25, R131). -/
theorem setMedium_busy_of_backoff {s : State} {g : Granted} {c u : Nat} (hm : s.line.medium = .idle)
    (hc : s.transmit.controller = .backoff g c u) :
    setMedium .busy s =
      deferGranted g { s with line := { s.line with medium := .busy }, transmit := ⟨.backoff g c 0, .busy⟩ } := by
  have hc' : (setLine { s.line with medium := .busy } s).transmit.controller = .backoff g c u := hc
  rw [setMedium, if_neg (by rw [hm]; decide), reportMedium_busy_of_backoff hc']
  rfl

/-- An accepted rising edge is a report of BUSY once the mark has begun (R20, R25). -/
theorem exec_risingEdge_dark {s : State} (hh : s.station.held = false) (hp : s.line.phase = .dark) :
    exec .risingEdge s = .next (settleAttn (setMedium .busy (afterRise s))) := by
  have hh' : (setDemodIn true s).station.held = false := hh
  have hp' : (setDemodIn true s).line.phase = .dark := hp
  show Host.Outcome.next (live _ _) = _
  rw [live_running hh', risingEdge, if_pos hp']
  rfl

theorem afterRise_medium (s : State) : (afterRise s).line.medium = s.line.medium := by simp [afterRise]

theorem afterRise_view (s : State) : (afterRise s).transmit.view = s.transmit.view := by simp [afterRise]

/-- Time makes no backoff of another controller state. -/
theorem advance_not_backoff (n : Nat) {s : State} (h : ∀ g c u, s.transmit.controller ≠ .backoff g c u) (g : Granted)
    (c u : Nat) : (advance n s).transmit.controller ≠ .backoff g c u := by
  rcases hc : s.transmit.controller with _ | ⟨x, m, v⟩ | ⟨x, hd, b, _ | ⟨e, k⟩⟩
  · rw [advance_controller_idle s n hc]
    exact nofun
  · exact absurd hc (h x m v)
  · rw [advance_controller_pending s n hc]
    exact nofun
  · obtain ⟨e', k', hrun⟩ := advance_controller_accepted s n hc
    rw [hrun]
    exact nofun

/-- Settles O10: with no backoff the report of BUSY moves the view alone, and time reaches the third sample. -/
theorem risingEdgeStartsMark : Obligations.RisingEdgeStartsMark := by
  intro s hh hp hfree
  refine ⟨?_, fun hstamp hphase => ?_⟩
  · have hfree' : (afterRise s).line.medium = .idle → ∀ g c u, (afterRise s).transmit.controller ≠ .backoff g c u :=
      fun hm => advance_not_backoff _ (hfree (by rwa [afterRise_medium] at hm))
    rw [exec_risingEdge_dark hh hp, setMedium_busy_of_not_backoff _ hfree', afterRise_medium, afterRise_view]
  · have htick : (afterRise s).line.tick = riseStamp s + 2 :=
      runToTick_tick (s := setDemodIn true s) hh (by show s.line.phase ≠ .off; rw [hp]; decide) hphase hstamp
    have hmark : (afterRise s).line.markTimer = min 255 ((afterRise s).line.tick + 1 - riseStamp s) := rfl
    refine ⟨?_, htick⟩
    rw [hmark, htick]
    omega

/-- Settles O11: the report of BUSY costs the backoff its partial slot and a deferral. -/
theorem risingEdgeDefersBackoff : Obligations.RisingEdgeDefersBackoff := by
  intro s g c u hh hp hm hc
  obtain ⟨v, hrun⟩ : ∃ v, (afterRise s).transmit.controller = .backoff g c v :=
    advance_controller_backoff (setDemodIn true s) _ hc
  refine ⟨_, ?_, deferGranted_defers g _⟩
  rw [exec_risingEdge_dark hh hp, setMedium_busy_of_backoff (by rw [afterRise_medium]; exact hm) hrun]

/-! ## The falling edge outside a copy (R37, R47) -/

theorem begin_eq_emptyCopy : Assembler.begin = emptyCopy := rfl

/-- A line event in HUNT and in TAIL (R37, R47). -/
theorem assemble_outside {s : State} (hp : s.assembler.phase = .hunt ∨ s.assembler.phase = .tail) (ev : LineEvent) :
    (ev = .startMarker → assemble ev s = { s with assembler := emptyCopy })
    ∧ (ev = .endMarker → assemble ev s = { s with assembler := { s.assembler with phase := .hunt } })
    ∧ (ev = .silence → assemble ev s = { s with assembler := { s.assembler with phase := .hunt } })
    ∧ (ev ≠ .startMarker → ev ≠ .endMarker → ev ≠ .silence → assemble ev s = s) := by
  have hsame (hhunt : s.assembler.phase = .hunt) : s = { s with assembler := { s.assembler with phase := .hunt } } := by
    rw [← hhunt]
  rcases hp with hp | hp
  · rw [assemble, hp]
    refine ⟨?_, ?_, ?_, fun hstart _ _ => ?_⟩
    · rintro rfl
      rfl
    · rintro rfl
      exact hsame hp
    · rintro rfl
      exact hsame hp
    · cases ev with
      | startMarker => exact absurd rfl hstart
      | _ => rfl
  · rw [assemble, hp]
    refine ⟨?_, ?_, ?_, fun hstart hend hsilent => ?_⟩
    · rintro rfl
      rfl
    · rintro rfl
      rfl
    · rintro rfl
      rfl
    · cases ev with
      | dataSymbol _ => rfl
      | erasure => rfl
      | startMarker => exact absurd rfl hstart
      | endMarker => exact absurd rfl hend
      | silence => exact absurd rfl hsilent

/-- No mark is a silence (R21). -/
theorem classifyMark_ne_silence (t : Nat) : classifyMark t ≠ .silence := by
  unfold classifyMark
  repeat' split
  all_goals exact nofun

/-- Settles O12: the three marks in HUNT and in TAIL. -/
theorem marksOutsideCopies : Obligations.MarksOutsideCopies := by
  intro n s hh hp hphase
  obtain ⟨hstart, hend, -, hother⟩ := assemble_outside (s := afterFall n s) (by simpa using hphase) (fallEvent n s)
  rw [exec_fallingEdge_lit n s hh hp]
  refine ⟨fun hev => ?_, fun hev => ?_, fun hs he => ?_⟩
  · rw [hstart hev]
  · rw [hend hev, afterFall_assembler]
  · rw [hother hs he (classifyMark_ne_silence _)]

/-! ## The end of blinding (R31) -/

/-- Settles O22: reception begins at the deadline tick. -/
theorem blindingEndResumesReception : Obligations.BlindingEndResumesReception := by
  intro s d hh hp hd
  show Host.Outcome.next (live _ _) = _
  rw [live_running hh]
  simp only [blindingEnd, hp, hd]
  rw [← runToTick_pins s d]
  rfl

/-! ## Own transmissions (R27 to R29, R135, R140) -/

/-- The pending hand-over, taken or refused (R135). -/
theorem exec_handOver_pending {s : State} {g : Granted} {h : List Byte} {b : BodyCheck} (hh : s.station.held = false)
    (hc : s.transmit.controller = .sending g h b .pending) :
    exec .handOver s = .next (settleAttn
      (if s.line.medium = .idle then startTransmission g h b s else refuseHandOver g s)) := by
  show Host.Outcome.next (live _ _) = _
  rw [live_running hh]
  simp only [handOver, hc]

/-- Settles O27: the medium turns BUSY with no backoff to interrupt. -/
theorem handOverStartsTransmission : Obligations.HandOverStartsTransmission := by
  intro s g h b hh hc hm
  rw [exec_handOver_pending hh hc, if_pos hm, startTransmission, setMedium_busy_of_idle]
  · rfl
  · exact hm
  · exact fun _ _ _ hx => nomatch hx

/-- A relay item changed in place, as its index shows it. -/
theorem relayAt_updateRelay_self (i : Nat) (f : RelayItem → RelayItem) (s : State) :
    relayAt (updateRelay i f s) i = (relayAt s i).map f := by
  simp only [relayAt, updateRelay_relays, List.getD_eq_getElem?_getD, List.getElem?_modify]
  rcases s.relays[i]? with _ | _ | r <;> simp

/-- An item keeps its urgency as it becomes CONTENDING. -/
theorem grantedUrgent_markContending (g : Granted) (s : State) :
    grantedUrgent (markContending g s) g = grantedUrgent s g := by
  cases g with
  | relay i => simp only [grantedUrgent, markContending, relayAt_updateRelay_self, Option.map_map, Function.comp_def]
  | origin i =>
    simp only [grantedUrgent, markContending, updateOrigin_outbox, List.getElem?_modify]
    rcases s.outbox[i]? with _ | o <;> simp

/-- Settles O28: the refused item is CONTENDING again under a fresh draw, and takes its deferral. -/
theorem refusedHandOverDrawsAgain : Obligations.RefusedHandOverDrawsAgain := by
  intro s g h b since hh hc hm
  have hbusy : s.line.medium ≠ .idle := by rw [hm]; decide
  refine ⟨(markContending g s).nextDraw (backoffRange (grantedUrgent (markContending g s) g)),
    { drawBackoff g (markContending g s) with
      transmit := { (drawBackoff g (markContending g s)).transmit with view := .busy } },
    _, ?_, ?_, ?_, ?_, ?_, deferGranted_defers g _⟩
  · rw [grantedUrgent_markContending]
    exact nextDraw_backoff_lt _ _
  · cases g <;> rfl
  · rintro i r rfl hr hst
    rw [markContending_relay s i r hr, hst]
    exact ⟨rfl, rfl⟩
  · rintro i o rfl ho hst
    rw [markContending_origin s i o ho, hst]
    exact ⟨rfl, rfl⟩
  · rw [exec_handOver_pending hh hc, if_neg hbusy]
    rfl

/-- A relay item sent is removed and counted (R120, R140). -/
theorem handBackSent_relay {s : State} {i : Nat} {r : RelayItem} (hr : relayAt s i = some r) :
    handBackSent (.relay i) s = relayGone i r (count .relaysSent (setController .idle s)) := by
  have hr' : relayAt (setController .idle s) i = some r := hr
  simp only [handBackSent, hr', dropRelay_eq_relayGone]
  rfl

/-- The tick after the end marker: the line is cut, and the copy handed back (R29, R140). -/
theorem exec_transmissionComplete_accepted {s : State} {g : Granted} {h : List Byte} {b : BodyCheck} {e : Element}
    {k : Nat} (hh : s.station.held = false) (hc : s.transmit.controller = .sending g h b (.accepted e k)) :
    let c := txCopy s g h b
    let s1 := runToTick (s.line.tick + c.remaining c.elementBound e k) s
    exec .transmissionComplete s = .next (settleAttn (handBackSent g (setLine s1.line.stopSending s1))) := by
  show Host.Outcome.next (live _ _) = _
  rw [live_running hh]
  simp only [transmissionComplete, hc]

/-- The part at that tick, with the controller IDLE. -/
theorem stopSending_eq (T : Nat) (s : State) :
    let s1 := runToTick T s
    setController .idle (setLine s1.line.stopSending s1) =
      { s1 with
        line := { s1.line with ledOut := false, txact := false, blindingDeadline := some (s1.line.tick + 32) }
        transmit := ⟨.idle, s.transmit.view⟩ } := by
  rw [← runToTick_transmit_view s T]
  rfl

/-- Settles O29: at the tick after the end marker the line is cut, and the item goes back to its owner as sent. -/
theorem transmissionCompleteHandsBack : Obligations.TransmissionCompleteHandsBack := by
  intro s g h b e k hh hc
  rw [exec_transmissionComplete_accepted hh hc]
  refine ⟨?_, ?_⟩
  · rintro i r rfl hr
    rw [handBackSent_relay (by exact (runToTick_relayAt s _ i).trans hr), stopSending_eq, count, runToTick_counters]
  · rintro i o rfl ho
    refine ⟨_, rfl, ?_⟩
    rw [handBackSent, stopSending_eq]
    exact endRepeat_ends true i _ (by simpa using ho)

end Sys2Proof.Machine
end

section
/-! PROOFS. CONFIGURE and RESTART as requests, and the state after power-on (O45, O49, O54). -/

namespace Sys2Proof.Machine

/-! ## Requests that the host completes (R173, R175) -/

/-- A request completed on a part that RSTn does not hold is taken (R173). -/
theorem live_hostRequest_of_completes {s : State} {r : Request} (hh : s.station.held = false) (h : Completes r s) :
    live (hostRequest r) s = settleAttn (takeRequest r (received r.bytes s)) := by
  rw [live_running hh, hostRequest_of_completes r s h]

/-- Settles O45: CONFIGURE is refused, found out of range, or applied. -/
theorem configureTaken : Obligations.ConfigureTaken := by
  intro s p hh hcomplete
  have hexec : exec (.configure p) s
      = .next (settleAttn (takeConfigure p (received (Request.configure p).bytes s))) :=
    congrArg Host.Outcome.next (live_hostRequest_of_completes hh hcomplete)
  rw [hexec]
  refine ⟨fun hc => ?_, fun hu hbad => ?_, fun hu hvalid => ?_⟩
  · have hc' : (received (Request.configure p).bytes s).station.state ≠ .unconfigured := hc
    rw [takeConfigure, if_pos hc']
    rfl
  · have hu' : ¬ (received (Request.configure p).bytes s).station.state ≠ .unconfigured := not_not_intro hu
    rw [takeConfigure, if_neg hu', if_neg fun h => hbad ((configureValid_iff p).1 h)]
    rfl
  · have hu' : ¬ (received (Request.configure p).bytes s).station.state ≠ .unconfigured := not_not_intro hu
    rw [takeConfigure, if_neg hu', if_pos ((configureValid_iff p).2 hvalid)]
    rfl

/-- Settles O49: RESTART is refused, or every block takes its part in it. -/
theorem restartClearsTraffic : Obligations.RestartClearsTraffic := by
  intro s hh hcomplete
  have hexec : exec .restart s
      = .next (settleAttn (whenConfigured (fun s => answer .ok (restartPart s)) (received Request.restart.bytes s))) :=
    congrArg Host.Outcome.next (live_hostRequest_of_completes hh hcomplete)
  rw [hexec]
  refine ⟨fun hu => ?_, fun hc => ?_⟩
  · have hu' : (received Request.restart.bytes s).station.state = .unconfigured := hu
    rw [whenConfigured, if_pos hu']
    rfl
  · have hc' : ¬ (received Request.restart.bytes s).station.state = .unconfigured := hc
    rw [whenConfigured, if_neg hc']
    rfl

/-! ## The state after power-on (R170) -/

theorem quiet_reset : State.reset.Quiet :=
  ⟨rfl, rfl, rfl, ⟨rfl, rfl, rfl, rfl⟩, ⟨rfl, rfl, rfl, rfl, rfl⟩, rfl, ⟨rfl, rfl⟩⟩

namespace State.Quiet

variable {s : State} (h : s.Quiet)
include h

/-- With nothing in the stores every queue is within its bound. -/
theorem withinCapacity : s.WithinCapacity := by
  obtain ⟨-, hinbox, -, houtbox, hreports⟩ := h.stores
  obtain ⟨-, -, -, hhistory⟩ := h.table
  refine ⟨?_, ?_, ?_, ?_, fun o ho => ?_⟩
  · rw [hinbox]; exact Nat.zero_le _
  · rw [houtbox]; exact Nat.zero_le _
  · rw [hreports]; exact Nat.zero_le _
  · rw [hhistory]; exact Nat.zero_le _
  · rw [houtbox] at ho
    cases ho

/-- Every slot is free, so none has a holder (R96). -/
theorem not_held (k : Nat) {holds : Slot → Bool} (hfree : holds Slot.free = false) :
    ¬ ∃ sl, s.slots[k]? = some sl ∧ holds sl = true := by
  rintro ⟨sl, hk, hheld⟩
  obtain ⟨hslots, -⟩ := h.stores
  have hmem := List.mem_of_getElem? hk
  rw [hslots] at hmem
  rw [List.eq_of_mem_replicate hmem, hfree] at hheld
  cases hheld

theorem holdersAgree : s.HoldersAgree := by
  obtain ⟨-, hinbox, -, houtbox, -⟩ := h.stores
  obtain ⟨-, -, hdecoder, -⟩ := h.table
  have hnone {holds : Slot → Bool} (hfree : holds Slot.free = false) {sl : Slot} (hsl : sl ∈ s.slots) :
      holds sl ≠ true := fun hheld => by
    obtain ⟨k, hk⟩ := List.getElem?_of_mem hsl
    exact h.not_held k hfree ⟨sl, hk, hheld⟩
  exact
    { inbox := fun k => iff_of_false (h.not_held k rfl) (by simp [hinbox])
      relay := fun k => iff_of_false (h.not_held k rfl) (by simp [h.relayAt_none])
      origin := fun k => iff_of_false (h.not_held k rfl) (by simp [houtbox])
      decoder := fun k => iff_of_false (h.not_held k rfl) (by simp [hdecoder])
      inboxApart := by simp [hinbox]
      relaysApart := fun i j r q hr => by cases (h.relayAt_none i).symm.trans hr
      originsApart := by simp [houtbox]
      reserved := fun sl hsl hheld => absurd hheld (hnone rfl hsl)
      submitted := fun sl hsl hheld => absurd hheld (hnone rfl hsl) }

/-- No entry, no relay item, no key, no decode. -/
theorem keysApart : s.KeysApart := by
  obtain ⟨-, hqueue, hdecoder, hhistory⟩ := h.table
  refine ⟨fun i j e f he => ?_, fun i j r q hr => ?_, ?_, fun i e he => ?_, ?_, fun i => ?_, fun i => ?_⟩
  · cases (h.entryAt_none i).symm.trans he
  · cases (h.relayAt_none i).symm.trans hr
  · rw [hhistory]; exact List.nodup_nil
  · cases (h.entryAt_none i).symm.trans he
  · rw [hqueue]; exact List.nodup_nil
  · simp [hqueue, h.entryAt_none]
  · simp [hdecoder, h.entryAt_none]

theorem mediumAgrees : s.MediumAgrees :=
  mediumAgrees_of_busy (by rw [h.line]; rfl) (by rw [h.transmit]) fun _ => h.phase_off

theorem grantAgrees : s.GrantAgrees := by
  refine (grantAgrees_iff s).2 ⟨fun g => ?_, by rw [h.controller_idle]; exact nofun⟩
  rw [h.controller_idle]
  cases g with
  | relay i => rw [ownedRole, h.relayAt_none]; rfl
  | origin i => rw [ownedRole, h.outbox_none]; rfl

end State.Quiet

/-- Settles O54: power-on leaves every block empty. -/
theorem resetMeetsTheInvariants : Obligations.ResetMeetsTheInvariants :=
  ⟨⟨List.length_replicate, List.length_replicate, List.length_replicate, List.length_replicate, List.length_replicate⟩,
    quiet_reset.withinCapacity, quiet_reset.holdersAgree, quiet_reset.mediumAgrees,
    quiet_reset.grantAgrees, ⟨rfl, fun _ => rfl⟩, quiet_reset.keysApart, entriesBounded_of_cleared rfl rfl,
    (quietUnconfigured_iff _).2 fun _ => quiet_reset⟩

end Sys2Proof.Machine
end

section
/-! PROOFS. A step with no command: the events that are due, the REFCLK period, the edge filter (O2). -/

namespace Sys2Proof.Machine

/-! ## The event taken (log 4) -/

/-- Of the events due one is taken. -/
theorem nextEvent_of_due {s : State} (h : due s ≠ []) : ∃ c ∈ due s, nextEvent s = some c := by
  unfold nextEvent
  split
  · next hnil => exact absurd hnil h
  · next c hone => exact ⟨c, by rw [hone]; exact List.mem_singleton_self c, rfl⟩
  · next c rest _ hmany =>
    have hlt : Config.eventChoice s.choiceCount % (c :: rest).length < (c :: rest).length :=
      Nat.mod_lt _ (Nat.succ_pos _)
    exact ⟨_, by rw [hmany]; exact List.getElem_mem hlt, List.getElem?_eq_getElem hlt⟩

theorem step_of_none_due {s : State} (hq : s.pending = []) (h : due s = []) : step s = .next (clockPeriod s) := by
  simp only [step, hq, idleStep, nextEvent, h]

theorem step_of_due {s : State} (hq : s.pending = []) (h : due s ≠ []) :
    ∃ c ∈ due s, step s = exec c { s with choiceCount := s.choiceCount + 1 } := by
  obtain ⟨c, hc, hnext⟩ := nextEvent_of_due h
  refine ⟨c, hc, ?_⟩
  have hchosen : s.chosen = { s with choiceCount := s.choiceCount + 1 } := rfl
  simp only [step, hq, idleStep, hnext, hchosen]

/-! ## The events due, block by block -/

theorem mem_duePins (c : Instr) (s : State) :
    c ∈ duePins s ↔
      (c = .rstnReset ∧ s.pins.rstn = false)
      ∨ (c = .risingEdge ∧ s.line.phase = .dark ∧ s.line.runCount = 3)
      ∨ (c = .fallingEdge (BitVec.ofNat 8 (min 255 (s.line.runFirst - s.line.markStamp)))
        ∧ s.line.phase = .lit ∧ s.line.runCount = 3)
      ∨ (c = .csnFall ∧ s.port.csnSeen = true ∧ s.pins.csn = false)
      ∨ (c = .csnRise ∧ s.port.csnSeen = false ∧ s.pins.csn = true)
      ∨ (∃ b, s.port.byteDone = some b ∧ c = .byteComplete b) := by
  simp only [duePins, List.mem_append, mem_onlyIf, mem_dueByte, Bool.and_eq_true, Bool.not_eq_true', beq_iff_eq,
    and_comm, or_assoc]

theorem mem_dueLine (c : Instr) (s : State) :
    c ∈ dueLine s ↔
      (c = .silence ∧ s.line.phase = .dark ∧ s.line.silenceRaised = false ∧ 96 ≤ s.line.spaceTimer)
      ∨ (c = .blindingEnd ∧ s.line.phase = .blind ∧ ∃ d, s.line.blindingDeadline = some d ∧ d ≤ s.line.tick) := by
  simp only [dueLine, List.mem_append, mem_onlyIf, mem_dueBlinding, Bool.and_eq_true, Bool.not_eq_true', beq_iff_eq,
    decide_eq_true_eq, and_assoc, and_comm (b := c = Instr.silence)]

/-- On a part not held, what is due is what is due in some block. -/
theorem mem_due_running (c : Instr) {s : State} (hh : s.station.held = false) :
    c ∈ due s ↔ c ∈ duePins s ∨ c ∈ dueLine s ∨ c ∈ dueTransmit s ∨ c ∈ dueDecoder s ∨ c ∈ dueDeadlines s := by
  rw [due, hh, if_neg (by decide)]
  simp only [List.mem_append, or_assoc]

theorem mem_due_held (c : Instr) {s : State} (hh : s.station.held = true) :
    c ∈ due s ↔ c = .rstnRelease ∧ s.pins.rstn = true := by
  rw [due, if_pos hh, mem_onlyIf, and_comm]

/-- An event is due exactly under its condition and at its moment. -/
theorem mem_due_iff_dueNow (c : Instr) (s : State) : c ∈ due s ↔ DueNow c s := by
  cases hh : s.station.held with
  | true =>
    rw [mem_due_held c hh]
    simp [DueNow, hh]
  | false =>
    rw [mem_due_running c hh, mem_duePins, mem_dueLine, mem_dueTransmit, mem_dueDecoder, dueDeadlines]
    simp only [List.mem_append, mem_dueEntries, mem_dueRelays, mem_dueOrigins, mem_dueListen]
    cases c with
    | fallingEdge n => simp [DueNow, hh, and_assoc, and_comm (a := n = _)]
    | _ => simp [DueNow, hh]

/-! ## A REFCLK period (log 1) -/

theorem advance_one_of_held {s : State} (hh : s.station.held = true) :
    advance 1 s = { s with refclk := s.refclk + 1 } := by
  rw [advance, if_neg (by decide), if_pos hh]

theorem clockPeriod_of_held {s : State} (hh : s.station.held = true) :
    clockPeriod s = { takePins s with refclk := s.refclk + 1 } := by
  have hrun : advance 1 (takePins s) = { takePins s with refclk := s.refclk + 1 } := advance_one_of_held hh
  have hheld : (advance 1 (takePins s)).station.held = true := by rw [advance_station_held]; exact hh
  simp only [clockPeriod, hheld, if_true]
  exact hrun

theorem setPort_sample {s : State} {p : Pins} (h : s.pins = p) :
    setPort (s.port.sample s.pins) s = { s with port := s.port.sample p } := by
  subst h
  rfl

theorem sampleLine_of_pins (before : Nat) {s : State} {p : Pins} (h : s.pins = p) :
    sampleLine before s = if s.line.tick = before then s else { s with line := s.line.sample p.demodIn } := by
  subst h
  rfl

theorem clockPeriod_of_running {s : State} (hh : s.station.held = false) :
    let s1 := takePins s
    let s2 := advance 1 s1
    let s3 : State := if s2.line.tick = s1.line.tick then s2 else { s2 with line := s2.line.sample s1.pins.demodIn }
    clockPeriod s = { s3 with port := s3.port.sample s1.pins } := by
  intro s1 s2 s3
  have hheld : s2.station.held = false := by rw [advance_station_held]; exact hh
  have hpins : s2.pins = s1.pins := advance_pins _ 1
  have hs3 : sampleLine s1.line.tick s2 = s3 := sampleLine_of_pins _ hpins
  have hpins3 : s3.pins = s1.pins := by
    simp only [s3]
    split <;> exact hpins
  calc clockPeriod s = setPort ((sampleLine s1.line.tick s2).port.sample (sampleLine s1.line.tick s2).pins)
        (sampleLine s1.line.tick s2) := if_neg (by rw [hheld]; decide)
    _ = setPort (s3.port.sample s3.pins) s3 := by rw [hs3]
    _ = { s3 with port := s3.port.sample s1.pins } := setPort_sample hpins3

/-! ## The edge filter (R18, R19) -/

/-- A sample equal to the accepted level empties the run. -/
theorem sample_equal {l : Line} {level : Bool}
    (h : (l.phase = .dark ∧ level = false) ∨ (l.phase = .lit ∧ level = true)) :
    l.sample level = { l with runCount := 0 } := by
  obtain ⟨hphase, rfl⟩ | ⟨hphase, rfl⟩ := h <;> simp [Line.sample, hphase]

/-- A sample opposite to the accepted level lengthens the run, or begins one at the present tick. -/
theorem sample_opposite {l : Line} {level : Bool}
    (h : (l.phase = .dark ∧ level = true) ∨ (l.phase = .lit ∧ level = false)) :
    l.sample level =
      { l with runCount := min 3 (l.runCount + 1), runFirst := if l.runCount = 0 then l.tick else l.runFirst } := by
  obtain ⟨hphase, rfl⟩ | ⟨hphase, rfl⟩ := h <;> simp [Line.sample, hphase]

theorem sample_off_blind {l : Line} {level : Bool} (h : l.phase = .off ∨ l.phase = .blind) : l.sample level = l := by
  obtain hphase | hphase := h <;> simp [Line.sample, hphase]

theorem filtersEdges (l : Line) (level : Bool) : FiltersEdges l level := by
  refine ⟨sample_equal, fun h hrun => ?empty, fun h hrun => ?one, fun h hrun => ?two, fun h hrun => ?full,
    sample_off_blind⟩
  case empty => rw [sample_opposite h, hrun]; rfl
  case one => rw [sample_opposite h, hrun]; rfl
  case two => rw [sample_opposite h, hrun]; rfl
  case full =>
    cases l
    subst hrun
    exact sample_opposite h

/-- Settles O2: the event taken, when each event is due, and the order within a REFCLK period. -/
theorem stepWithoutCommand : Obligations.StepWithoutCommand :=
  ⟨fun _ hq => ⟨step_of_none_due hq, step_of_due hq⟩, mem_due_iff_dueNow,
    fun _ => ⟨clockPeriod_of_held, clockPeriod_of_running⟩, filtersEdges⟩

end Sys2Proof.Machine
end

section
/-! PROOFS. A silence: the medium IDLE, the copy ended, and the order of its verdict and the checks (O21). -/

namespace Sys2Proof.Machine

/-! ## The space at its 96th tick (R24) -/

@[simp] theorem afterSilence_line_medium (s : State) : (afterSilence s).line.medium = s.line.medium := by
  simp [afterSilence]

@[simp] theorem afterSilence_view (s : State) : (afterSilence s).transmit.view = s.transmit.view := by
  simp [afterSilence]

@[simp] theorem afterSilence_assembler (s : State) : (afterSilence s).assembler = s.assembler := by
  simp [afterSilence]

@[simp] theorem afterSilence_orderCount (s : State) : (afterSilence s).orderCount = s.orderCount := by
  simp [afterSilence]

@[simp] theorem afterSilence_cfg (s : State) : (afterSilence s).cfg = s.cfg := runToTick_cfg s _

@[simp] theorem afterSilence_station_session (s : State) : (afterSilence s).station.session = s.station.session := by
  simp [afterSilence]

@[simp] theorem afterSilence_history (s : State) : (afterSilence s).history = s.history := by simp [afterSilence]

@[simp] theorem afterSilence_table (s : State) : (afterSilence s).table = s.table := by simp [afterSilence]

theorem afterSilence_relayAt (i : Nat) (s : State) : relayAt (afterSilence s) i = relayAt s i :=
  runToTick_relayAt s _ i

/-- A silence not yet raised on a configured station ends the space. -/
theorem exec_silence_dark {s : State} (hh : s.station.held = false) (hconf : s.station.state ≠ .unconfigured)
    (hp : s.line.phase = .dark) (hraised : s.line.silenceRaised = false) :
    exec .silence s = .next (settleAttn (endSpace (afterSilence s))) := by
  have hconf' : (afterSilence s).station.state ≠ .unconfigured := by
    rw [show (afterSilence s).station.state = s.station.state from runToTick_station_state s _]
    exact hconf
  have hspace : silence s = endSpace (afterSilence s) := by
    rw [silence, if_pos ⟨hp, hraised⟩]
    exact if_neg hconf'
  show Host.Outcome.next (live silence s) = _
  rw [live_running hh, hspace]

/-- The report of IDLE on a state that keeps the line and the controller of the space's end. -/
theorem setMedium_idle_afterSilence {s t : State} (hline : t.line = (afterSilence s).line)
    (htransmit : t.transmit = (afterSilence s).transmit) :
    setMedium .idle t =
      { t with
        line := { (afterSilence s).line with medium := .idle }
        transmit :=
          { (afterSilence s).transmit with view := if s.line.medium = .busy then .idle else s.transmit.view } } := by
  rw [setMedium_idle, hline, htransmit, afterSilence_line_medium, afterSilence_view]

/-! ## What a silence makes of a copy (R40, R45) -/

theorem assemble_silence_outside {s : State} (hp : s.assembler.phase = .hunt ∨ s.assembler.phase = .tail) :
    assemble .silence s = { s with assembler := { s.assembler with phase := .hunt } } := by
  obtain ⟨-, -, hsilence, -⟩ := assemble_outside hp .silence
  exact hsilence rfl

theorem assemble_silence_of_header {s : State} (hp : s.assembler.phase = .header) :
    assemble .silence s = headerLost s.assembler s := by
  rw [assemble, hp]
  rfl

theorem assemble_silence_of_body {s : State} {h : Header} (hp : s.assembler.phase = .body)
    (hd : s.assembler.decided = some h) :
    assemble .silence s = copyEnded .hunt h { s with counters := s.counters.bump .copiesTruncated } := by
  rw [assemble, hp]
  exact closeCopy_eq_copyEnded .hunt (count .copiesTruncated s) h hd

/-- Outside a body on a BUSY medium, the silence event comes before the report of IDLE. -/
theorem endSpace_of_no_race {s : State} (h : ¬ (s.assembler.phase = .body ∧ s.line.medium = .busy)) :
    endSpace s = setMedium .idle (assemble .silence s) := if_neg h

/-- In a body on a BUSY medium, the report of IDLE and some checks come before the verdict (R118; log 21). -/
theorem endSpace_of_race {s : State} {h : Header} (hp : s.assembler.phase = .body) (hm : s.line.medium = .busy)
    (hd : s.assembler.decided = some h) :
    endSpace s =
      let t := takeChecks (Config.checksFirst s.orderCount) (setMedium .idle s.ordered)
      copyEnded .hunt h { t with counters := t.counters.bump .copiesTruncated } := by
  rw [endSpace, if_pos ⟨hp, hm⟩, silenceInBody, assemble_silence_of_body]
  · rw [takeChecks_assembler, setMedium_assembler]
    exact hp
  · rw [takeChecks_assembler, setMedium_assembler]
    exact hd

/-! ## The verdict of the copy and the relay item of its key (R114, R117, R118) -/

/-- A verdict reads the configuration, the session, the history and the table alone (R49). -/
theorem verdictOf_congr {s t : State} (h : Header) (hcfg : t.cfg = s.cfg)
    (hsession : t.station.session = s.station.session) (hhistory : t.history = s.history) (htable : t.table = s.table) :
    verdictOf t h = verdictOf s h := by
  simp only [verdictOf, entryAt, hcfg, hsession, hhistory, htable]
  rfl

/-- Neither a count nor a grant nor a backoff completion moves what a verdict reads. -/
theorem verdictOf_count_takeChecks (h : Header) (c : Counter) (n : Nat) (s : State) :
    verdictOf (count c (takeChecks n s)) h = verdictOf s h := by
  have hstation : (takeChecks n s).station = s.station := takeChecks_station s n
  exact verdictOf_congr h (congrArg (fun b : Station => b.config.getD ConfigRecord.blank) hstation)
    (congrArg Station.session hstation) (takeChecks_history s n) (takeChecks_table s n)

theorem verdictOf_afterSilence (h : Header) (s : State) : verdictOf (afterSilence s) h = verdictOf s h :=
  verdictOf_congr h (afterSilence_cfg s) (afterSilence_station_session s) (afterSilence_history s)
    (afterSilence_table s)

/-- A copy that ends as a DUPLICATE is heard by the relay items alone (R50, R114). -/
theorem relayAt_copyEnded_of_duplicate (next : AssemblerPhase) {s : State} {h : Header}
    (hv : verdictOf s h = .duplicate) (i : Nat) :
    relayAt (copyEnded next h s) i = (relayAt s i).map fun r => r.hear h.key := by
  have hgive (r : CopyRecord) (hr : r.header = h) :
      giveVerdict r s = hearDuplicate h.key (count .duplicates (count .copiesAccepted s)) := by
    rw [giveVerdict, hr, hv, ← hr]
    rfl
  show relayAt (giveVerdict _ s) i = _
  rw [hgive _ rfl, relayAt_hearDuplicate]
  rfl

theorem relayAt_dropRelay_self (i : Nat) (r : RelayItem) (s : State) : relayAt (dropRelay i r s) i = none := by
  simp only [relayAt, List.getD_eq_getElem?_getD, dropRelay, releaseSlot, List.getElem?_set]
  split
  · split <;> rfl
  · next h => exact absurd trivial h

/-- Once an item is SENDING no check is left at this instant (R127, R133). -/
theorem takeChecks_of_sending (n : Nat) {s : State} {g : Granted} {header : List Byte} {b : BodyCheck} {c : HandOver}
    (h : s.transmit.controller = .sending g header b c) : takeChecks n s = s := by
  refine takeChecks_of_settled n s ?_
  simp only [nextCheck, backoffCompletion, h]

/-- The final check of a relay item finds it gone or SENDING after any further checks (R117, R133). -/
theorem relayAt_takeChecks_of_completion (n : Nat) {s : State} {i u : Nat} {r : RelayItem} {since : Millis}
    (hc : s.transmit.controller = .backoff (.relay i) 0 u) (hview : s.transmit.view = .idle)
    (hr : relayAt s i = some r) (hstate : r.state = .contending since) :
    relayAt (takeChecks (n + 1) s) i =
      if s.cfg.threshold ≤ r.heard then none else some { r with state := .sending since } := by
  by_cases hheard : s.cfg.threshold ≤ r.heard
  · have hcheck : nextCheck s = setController .idle (suppressRelay i r s) := by
      simp only [nextCheck, backoffCompletion, hc, hview, hr, if_pos hheard, if_true]
    rw [if_pos hheard, takeChecks, hcheck]
    exact relayAt_takeChecks_none i n _ (relayAt_dropRelay_self i r s)
  · have hcheck : nextCheck s = handCopyOver (.relay i) r.key r.identity r.hops r.slot s := by
      simp only [nextCheck, backoffCompletion, hc, hview, hr, if_neg hheard, if_true]
    rw [if_neg hheard, takeChecks, hcheck, takeChecks_of_sending n rfl]
    show relayAt (updateRelay i _ s) i = _
    rw [relayAt_updateRelay_self, hr, Option.map_some, hstate]
    rfl

/-- The two orders of a DUPLICATE and the final check of the item it counts for (R118). -/
theorem relayAt_duplicate_after_checks (n : Nat) {s : State} {h : Header} {i u : Nat} {r : RelayItem} {since : Millis}
    (hc : s.transmit.controller = .backoff (.relay i) 0 u) (hview : s.transmit.view = .idle)
    (hr : relayAt s i = some r) (hstate : r.state = .contending since) (hkey : r.key = h.key) :
    ((relayAt (takeChecks n s) i).map fun r => r.hear h.key) =
      if n = 0 then some { r with heard := min 255 (r.heard + 1) }
      else if s.cfg.threshold ≤ r.heard then none
      else some { r with state := .sending since } := by
  cases n with
  | zero =>
    have hhear : r.hear h.key = { r with heard := min 255 (r.heard + 1) } :=
      if_pos ⟨hkey, by rw [hstate]; rfl⟩
    rw [takeChecks, hr, Option.map_some, hhear, if_pos rfl]
  | succ n =>
    rw [relayAt_takeChecks_of_completion n hc hview hr hstate, if_neg (Nat.succ_ne_zero n)]
    split
    · rfl
    · exact congrArg some (if_neg fun hears => nomatch hears.2)

/-- Settles O21: the copy ends by its phase; in a body on a BUSY medium the checks chosen come first. -/
theorem silenceEndsCopies : Obligations.SilenceEndsCopies := by
  intro s hh hconf hp hraised idle s1
  have hexec := exec_silence_dark hh hconf hp hraised
  have hassembler : s1.assembler = s.assembler := afterSilence_assembler s
  have hends (hrace : ¬ (s.assembler.phase = .body ∧ s.line.medium = .busy)) {t : State}
      (ht : assemble .silence s1 = t) (hline : t.line = s1.line) (htransmit : t.transmit = s1.transmit) :
      exec .silence s = .next (settleAttn (idle t)) := by
    have hrace1 : ¬ (s1.assembler.phase = .body ∧ s1.line.medium = .busy) := by
      rwa [hassembler, afterSilence_line_medium]
    rw [hexec, endSpace_of_no_race hrace1, ht, setMedium_idle_afterSilence hline htransmit]
  refine ⟨fun hphase => ?hunt, fun hphase => ?tail, fun hphase => ?header, fun h hphase hd => ?body⟩
  case hunt =>
    refine hends (by simp [hphase]) ?_ rfl rfl
    rw [assemble_silence_outside (.inl (by rw [hassembler, hphase])), hassembler, ← hphase, ← hassembler]
  case tail =>
    refine hends (by simp [hphase]) ?_ rfl rfl
    rw [assemble_silence_outside (.inr (by rw [hassembler, hphase])), hassembler]
  case header =>
    refine hends (by simp [hphase]) ?_ rfl rfl
    rw [assemble_silence_of_header (by rw [hassembler, hphase]), hassembler]
  case body =>
    intro lost
    have hphase1 : s1.assembler.phase = .body := by rw [hassembler, hphase]
    have hd1 : s1.assembler.decided = some h := by rw [hassembler, hd]
    refine ⟨fun hm => ?_, fun hm => ?_⟩
    · exact hends (by simp [hm]) (assemble_silence_of_body hphase1 hd1)
        (giveVerdict_line (s := count .copiesTruncated s1) _) (giveVerdict_transmit (s := count .copiesTruncated s1) _)
    · intro s2
      have hs2 : s1.ordered = s2 := by rw [State.ordered, afterSilence_orderCount]
      have hrace : exec .silence s =
          .next (settleAttn (lost (takeChecks (Config.checksFirst s.orderCount) (idle s2)))) := by
        rw [hexec, endSpace_of_race hphase1 (by rw [afterSilence_line_medium, hm]) hd1, afterSilence_orderCount, hs2,
          setMedium_idle_afterSilence (t := s2) rfl rfl]
      refine ⟨hrace, fun i r u since hc hr hstate hkey hv => ⟨_, hrace, ?_⟩⟩
      obtain ⟨v, hc1⟩ : ∃ v, (idle s2).transmit.controller = .backoff (.relay i) 0 v :=
        advance_controller_backoff s _ hc
      have hview : (idle s2).transmit.view = .idle := if_pos hm
      have hr1 : relayAt (idle s2) i = some r := (afterSilence_relayAt i s).trans hr
      have hcfg : (idle s2).cfg = s.cfg := afterSilence_cfg s
      generalize Config.checksFirst s.orderCount = n
      have hv1 : verdictOf (count .copiesTruncated (takeChecks n (idle s2))) h = .duplicate := calc
        _ = verdictOf (idle s2) h := verdictOf_count_takeChecks h _ n _
        _ = verdictOf s h := verdictOf_afterSilence h s
        _ = .duplicate := hv
      exact (relayAt_copyEnded_of_duplicate .hunt hv1 i).trans
        (by rw [← hcfg]; exact relayAt_duplicate_after_checks n hc1 hview hr1 hstate hkey)

end Sys2Proof.Machine
end

section
/-! PROOFS. The command at the front of the queue (O1); the ends of a copy in HEADER and in BODY, the order of the
verdicts and what they do with a copy that reaches no entry (O13, O16 to O18). -/

namespace Sys2Proof.Machine

/-! ## The front of the queue -/

/-- Settles O1: the step's case of a queue that is not empty. -/
theorem stepTakesFrontCommand : Obligations.StepTakesFrontCommand := fun _ _ _ => rfl

/-! ## The erasure run (R38, R43) -/

/-- An erasure stands at the run's end from the 24th in a row on; a data symbol never does. -/
theorem erasure_at_limit_iff (run : Nat) (e : Bool) :
    (e = true ∧ erasuresAfter run e = 24) ↔ (e = true ∧ 24 ≤ run + 1) := by
  refine and_congr_right fun he => ?_
  rw [erasuresAfter, if_pos he]
  omega

/-! ## The markers in a copy (R40, R42, R45, R46) -/

/-- An end marker ends a copy as a silence does. -/
theorem assemble_endMarker_of_copy {s : State} (hp : s.assembler.phase = .header ∨ s.assembler.phase = .body) :
    assemble .endMarker s = assemble .silence s := by
  rcases hp with hp | hp
  · simp only [assemble, hp]
    rfl
  · simp only [assemble, hp]
    rfl

/-- A start marker ends a copy as a silence does, and begins a new one. -/
theorem assemble_startMarker_of_copy {s : State} (hp : s.assembler.phase = .header ∨ s.assembler.phase = .body) :
    assemble .startMarker s = { assemble .silence s with assembler := emptyCopy } := by
  rcases hp with hp | hp
  · simp only [assemble, hp]
    rfl
  · simp only [assemble, hp]
    rfl

/-! ## A copy in HEADER (R38, R41) -/

/-- A header symbol before the last: added to its sum, and the copy goes on unless an erasure stands at the run's end
(R38, R41). -/
theorem headerSymbol_of_lt (v : Int) (e : Bool) {s : State} (hsums : s.assembler.headerSums.length = 64)
    (hi : s.assembler.headerIndex + 1 < 192) :
    headerSymbol v e s =
      if e = true ∧ erasuresAfter s.assembler.erasureRun e = 24 then headerLost (headerTaken s.assembler v e) s
      else { s with assembler := headerTaken s.assembler v e } := by
  have hgo : ¬ (headerTaken s.assembler v e).headerIndex = Config.headerSymbols := Nat.ne_of_lt hi
  rw [headerSymbol, takeHeaderSymbol_eq _ v e hsums]
  exact if_neg hgo

/-- Settles O13: a symbol is added to its sum, and the three early ends reject the header. -/
theorem headerSymbolsAndEarlyEnds : Obligations.HeaderSymbolsAndEarlyEnds := by
  intro n s hh hp hphase hsums
  have hphase' : (afterFall n s).assembler.phase = .header := by rw [afterFall_assembler, hphase]
  rw [exec_fallingEdge_lit n s hh hp]
  refine ⟨fun v e hv hindex => ?symbol, fun hev => ?endMarker, fun hev => ?startMarker⟩
  case symbol =>
    rw [assemble_headerSymbol hphase' hv, headerSymbol_of_lt v e (by rwa [afterFall_assembler])
      (by rwa [afterFall_assembler]), afterFall_assembler]
    simp only [erasure_at_limit_iff]
    refine ⟨fun hgo => ?_, fun he hrun => ?_⟩
    · rw [if_neg fun ⟨he, hrun⟩ => hgo.elim (by simp [he]) (by omega)]
    · rw [if_pos ⟨he, hrun.ge⟩]
  case endMarker =>
    rw [hev, assemble_endMarker_of_copy (.inl hphase'), assemble_silence_of_header hphase', afterFall_assembler]
  case startMarker =>
    rw [hev, assemble_startMarker_of_copy (.inl hphase'), assemble_silence_of_header hphase', afterFall_assembler]

/-! ## A copy in BODY (R44, R45, R48) -/

/-- The Nth body symbol makes the copy COMPLETE (R44). -/
theorem bodySymbol_last (v : Int) (e : Bool) {s : State} {h : Header} (hd : s.assembler.decided = some h)
    (hi : s.assembler.bodyIndex + 1 = codedLength h.identity.length) :
    bodySymbol v e s =
      copyEnded .tail h { s with assembler := bodyTaken h.identity.length s.assembler v e } := by
  have hlast : (bodyTaken h.identity.length s.assembler v e).bodyIndex = codedLength h.identity.length := hi
  simp only [bodySymbol, hd, takeBodySymbol_eq, if_pos hlast]
  exact closeCopy_eq_copyEnded .tail _ h hd

/-- Settles O16: the last symbol completes the copy; an erasure run and the two markers truncate it. -/
theorem copyEndsWithVerdict : Obligations.CopyEndsWithVerdict := by
  intro n s h hh hp hphase hd truncated
  have hphase' : (afterFall n s).assembler.phase = .body := by rw [afterFall_assembler, hphase]
  have hd' : (afterFall n s).assembler.decided = some h := by rw [afterFall_assembler, hd]
  rw [exec_fallingEdge_lit n s hh hp]
  refine ⟨fun v e hv => ⟨fun hlast => ?complete, fun hindex he hrun => ?erasures⟩, fun hev => ?endMarker,
    fun hev => ?startMarker⟩
  case complete =>
    rw [assemble_bodySymbol hphase' hv, bodySymbol_last v e hd' (by rw [afterFall_assembler]; exact hlast),
      afterFall_assembler]
  case erasures =>
    rw [assemble_bodySymbol hphase' hv, bodySymbol_of_lt v e _ hd' (by rw [afterFall_assembler]; exact hindex),
      afterFall_assembler, if_pos ((erasure_at_limit_iff _ _).2 ⟨he, hrun.ge⟩), afterFall_counters]
  case endMarker =>
    rw [hev, assemble_endMarker_of_copy (.inr hphase'), assemble_silence_of_body hphase' hd', afterFall_counters]
  case startMarker =>
    rw [hev, assemble_startMarker_of_copy (.inr hphase'), assemble_silence_of_body hphase' hd', afterFall_counters]

/-! ## The order of the verdicts (R49) -/

/-- A copy whose key an entry holds, where no test before it holds: the identities decide (R49). -/
theorem verdictOf_of_findKey {s : State} {h : Header} {i : Nat} {e : Entry} (horigin : h.key.origin ≠ s.cfg.stationId)
    (hhistory : h.key ∉ s.history) (hfind : findKey s.table h.key = some i) (he : entryAt s i = some e) :
    verdictOf s h = if e.identity = h.identity then .matched i else .keyConflict := by
  simp only [verdictOf, if_neg horigin, if_neg hhistory, hfind, he, Option.map_some, Option.some.injEq]

/-- A copy whose key no entry holds, where no test before it holds (R49). -/
theorem verdictOf_of_findKey_none {s : State} {h : Header} (horigin : h.key.origin ≠ s.cfg.stationId)
    (hhistory : h.key ∉ s.history) (hfind : findKey s.table h.key = none) : verdictOf s h = .new := by
  simp only [verdictOf, if_neg horigin, if_neg hhistory, hfind]

/-- Settles O17: the tests of R49 in their order, the lowest entry of the key found. -/
theorem verdictOrder : Obligations.VerdictOrder := by
  intro s h
  refine ⟨fun ho hs => ?echo, fun ho hs => ?selfConflict,
    fun ho => ⟨fun hh => ?duplicate, fun hh => ⟨?held, ?new⟩⟩⟩
  case echo => rw [verdictOf, if_pos ho, if_pos hs]
  case selfConflict => rw [verdictOf, if_pos ho, if_neg hs]
  case duplicate => rw [verdictOf, if_neg ho, if_pos hh]
  case held =>
    intro i e he hk hfirst
    rw [verdictOf_of_findKey ho hh (findKey_eq_some s h.key i e he hk hfirst) he]
    exact ⟨fun hid => if_pos hid, fun hid => if_neg hid⟩
  case new => exact fun hnone => verdictOf_of_findKey_none ho hh ((findKey_eq_none s h.key).2 hnone)

/-! ## What a copy that reaches no entry does (R50, R51) -/

/-- An item takes heard counts in every state but SENDING (R114). -/
theorem hears_iff_not_sending (st : RelayState) : st.hears = true ↔ ∀ t, st ≠ .sending t := by
  cases st with
  | holding => exact iff_of_true rfl nofun
  | ready _ => exact iff_of_true rfl nofun
  | contending _ => exact iff_of_true rfl nofun
  | sending t => exact iff_of_false nofun fun h => h t rfl

/-- A DUPLICATE at a relay item: its own key's, unless it is SENDING (R114). -/
theorem hear_eq_if_not_sending (item : RelayItem) (k : Key) :
    item.hear k =
      if item.key = k ∧ (∀ t, item.state ≠ .sending t) then { item with heard := min 255 (item.heard + 1) }
      else item :=
  if_congr (and_congr_right fun _ => hears_iff_not_sending item.state) rfl rfl

/-- A verdict is acted on with the copy already counted (R50, R51). -/
theorem giveVerdict_of_verdict {s : State} {r : CopyRecord} {v : Verdict} (hv : verdictOf s r.header = v) :
    giveVerdict r s = actOn v r (count .copiesAccepted s) := by rw [giveVerdict, hv]

/-- Settles O18: each verdict's own effect, on the state with the copy counted. -/
theorem copiesThatReachNoEntry : Obligations.CopiesThatReachNoEntry := by
  intro s r
  refine ⟨fun hv => ?echo, fun hv => ?selfConflict, fun hv => ?duplicate, fun hv => ?keyConflict⟩
  case echo => exact giveVerdict_of_verdict hv
  case selfConflict => exact giveVerdict_of_verdict hv
  case duplicate =>
    simp only [← hear_eq_if_not_sending]
    exact giveVerdict_of_verdict hv
  case keyConflict => exact giveVerdict_of_verdict hv

end Sys2Proof.Machine
end

section
/-! PROOFS. What a step can do to the stores, said once: every command, and every REFCLK period, is a chain of moves of
the stores (for O55 and O58). -/

namespace Sys2Proof.Machine

/-! ## The moves -/

/-- The stores and the Copy Assembler: all that the bounds, the holders and the keys speak of. -/
def State.stores (s : State) :
    Assembler × List (Option Entry) × List Nat × Option Decode × List Key × List Slot × List Message
      × List (Option RelayItem) × List OriginItem × List Report :=
  (s.assembler, s.table, s.decodeQueue, s.decoder, s.history, s.slots, s.inbox, s.relays, s.outbox, s.reports)

/-- The Copy Buffer has its sizes (R36). -/
structure Assembler.Shaped (a : Assembler) : Prop where
  headerSums : a.headerSums.length = 64
  body : a.body.length = 808

/-- What a relay item keeps until it is removed: its key and its slot. -/
def RelayItem.claim (r : RelayItem) : Key × Nat := (r.key, r.slot)

/-- One move of the stores. -/
inductive StoreMove (s : State) : State → Prop where
  /-- Nothing moves in the stores. -/
  | same {t : State} (h : t.stores = s.stores) : StoreMove s t
  /-- Every store empty (R169, R170). -/
  | emptied {t : State} (h : t.stores = State.reset.stores) : StoreMove s t
  /-- The Copy Assembler moves on (R36). -/
  | assembler {a : Assembler} (h : s.assembler.Shaped → a.Shaped) : StoreMove s (setAssembler a s)
  /-- A NEW copy (R56 to R58). -/
  | opened (r : CopyRecord) (hhistory : r.header.key ∉ s.history) (htable : findKey s.table r.header.key = none) :
    StoreMove s (openEntry r s)
  /-- A MATCH copy (R59, R60). -/
  | matched (i : Nat) (r : CopyRecord) : StoreMove s (matchCopy i r s)
  /-- The deadline of a WAITING entry (R65). -/
  | expired {i : Nat} {e : Entry} (he : entryAt s i = some e) (hw : e.state = .waiting) : StoreMove s (expireEntry i s)
  /-- The deadline of a QUEUED or DECODING entry (R66). -/
  | marked {i : Nat} {e : Entry} (he : entryAt s i = some e) :
    StoreMove s (putEntry i (some { e with final := true }) s)
  /-- The Decoder takes an entry (R63). -/
  | taken : StoreMove s (decoderTake s)
  /-- A decode succeeds (R67, R68). -/
  | recovered {d : Decode} (hd : s.decoder = some d) (payload : List Byte) : StoreMove s (decodeSuccess d payload s)
  /-- A decode fails (R69). -/
  | failed {d : Decode} (hd : s.decoder = some d) : StoreMove s (decodeFailure d s)
  /-- Relay items change in place (R114 to R117). -/
  | relays {rs : List (Option RelayItem)}
    (h : rs.map (Option.map RelayItem.claim) = s.relays.map (Option.map RelayItem.claim)) :
    StoreMove s { s with relays := rs }
  /-- A relay item is removed (R115, R116, R120). -/
  | relayGone {i : Nat} {r : RelayItem} (h : relayAt s i = some r) : StoreMove s (dropRelay i r s)
  /-- Origin items change in place; one comes to wait for its report only while the Report Queue is full (R155). -/
  | origins {os : List OriginItem} (hslot : os.map OriginItem.slot = s.outbox.map OriginItem.slot)
    (hpending : ∀ o ∈ os, o.state = .reportPending →
      8 ≤ s.reports.length ∨ ∃ p ∈ s.outbox, p.state = .reportPending) :
    StoreMove s { s with outbox := os }
  /-- A report is filed and its item gone (R155). -/
  | filed {i : Nat} {o : OriginItem} (ho : s.outbox[i]? = some o) (hroom : s.reports.length < 8) :
    StoreMove s (fileReport i o s)
  /-- The head of the Report Queue is collected (R156). -/
  | reportCollected (h : s.reports ≠ []) : StoreMove s (removeReport s)
  /-- The head of the Inbox is collected (R104). -/
  | messageCollected : StoreMove s (removeMessage s)
  /-- A SUBMIT is accepted (R147). -/
  | submitted (p : SubmitParams) (hroom : s.outbox.length < 4) : StoreMove s (acceptSubmit p s)

/-- A chain of moves of the stores. -/
abbrev Moves : State → State → Prop := Relation.ReflTransGen StoreMove

theorem StoreMove.moves {s t : State} (h : StoreMove s t) : Moves s t := .single h

theorem moves_of_same {s t : State} (h : t.stores = s.stores) : Moves s t := (StoreMove.same h).moves

/-- A chain that begins once something other than the stores has changed. -/
theorem Moves.after {s u t : State} (h : Moves u t) (hu : u.stores = s.stores) : Moves s t := (moves_of_same hu).trans h

/-- What every move of the stores keeps, a chain of them keeps. -/
theorem Moves.keeps {P : State → Prop} (hmove : ∀ s t, P s → StoreMove s t → P t) {s t : State} (h : Moves s t)
    (hs : P s) : P t := by
  induction h with
  | refl => exact hs
  | tail _ hm ih => exact hmove _ _ ih hm

/-! ## Lists changed in place -/

/-- What a change of one place leaves of it, the list keeps of all. -/
theorem map_modify_of_same {α β : Type} {g : α → β} {f : α → α} {l : List α} {i : Nat}
    (h : ∀ a, l[i]? = some a → g (f a) = g a) : (l.modify i f).map g = l.map g := by
  apply List.ext_getElem?
  intro j
  rw [List.getElem?_map, List.getElem?_map, List.getElem?_modify]
  by_cases hij : i = j
  · subst hij
    cases hx : l[i]? with
    | none => rfl
    | some a => simp [h a hx]
  · simp [hij]

theorem mem_modify {α : Type} {f : α → α} {l : List α} {i : Nat} {b : α} (h : b ∈ l.modify i f) :
    b ∈ l ∨ ∃ a, l[i]? = some a ∧ b = f a := by
  obtain ⟨j, hj⟩ := List.getElem?_of_mem h
  rw [List.getElem?_modify] at hj
  cases hx : l[j]? with
  | none => simp [hx] at hj
  | some a =>
    by_cases hij : i = j
    · subst hij
      exact .inr ⟨a, hx, by simpa [hx, eq_comm] using hj⟩
    · refine .inl (List.mem_of_getElem? (i := j) ?_)
      simpa [hx, hij] using hj

/-! ## The two owners -/

theorem moves_updateRelay (i : Nat) {f : RelayItem → RelayItem} (hf : ∀ r, (f r).claim = r.claim) (s : State) :
    Moves s (updateRelay i f s) := by
  refine (StoreMove.relays (map_modify_of_same fun x _ => ?_)).moves
  cases x with
  | none => rfl
  | some r => exact congrArg some (hf r)

theorem moves_updateOrigin {i : Nat} {f : OriginItem → OriginItem} {s : State}
    (hslot : ∀ o, s.outbox[i]? = some o → (f o).slot = o.slot)
    (hpending : ∀ o, s.outbox[i]? = some o → (f o).state = .reportPending →
      8 ≤ s.reports.length ∨ o.state = .reportPending) : Moves s (updateOrigin i f s) := by
  refine (StoreMove.origins (map_modify_of_same hslot) fun o ho hst => ?_).moves
  rcases mem_modify ho with ho | ⟨p, hp, rfl⟩
  · exact .inr ⟨o, ho, hst⟩
  · exact (hpending p hp hst).imp_right fun hw => ⟨p, List.mem_of_getElem? hp, hw⟩

/-- Every origin item changed in its place. -/
theorem moves_mapOrigins {f : OriginItem → OriginItem} (hslot : ∀ o, (f o).slot = o.slot)
    (hpending : ∀ o, (f o).state = .reportPending → o.state = .reportPending) (s : State) :
    Moves s { s with outbox := s.outbox.map f } := by
  refine (StoreMove.origins ?_ fun o ho hst => ?_).moves
  · rw [List.map_map]
    exact List.map_congr_left fun o _ => hslot o
  · obtain ⟨p, hp, rfl⟩ := List.mem_map.1 ho
    exact .inr ⟨p, hp, hpending p hst⟩

theorem moves_suppressRelay {i : Nat} {r : RelayItem} {s : State} (h : relayAt s i = some r) :
    Moves s (suppressRelay i r s) :=
  (StoreMove.relayGone h).moves.tail (.same rfl)

theorem moves_makeReport (i : Nat) (s : State) : Moves s (makeReport i s) := by
  unfold makeReport
  split
  · exact .refl
  · next o ho =>
    split
    · next hroom => exact (StoreMove.filed ho hroom).moves
    · next hfull => exact moves_updateOrigin (fun _ _ => rfl) fun _ _ _ => .inl (Nat.le_of_not_lt hfull)

/-- The end of a repeat (R150). -/
theorem moves_endRepeat (sent : Bool) (i : Nat) (s : State) : Moves s (endRepeat sent i s) := by
  unfold endRepeat
  split
  · exact .refl
  · next o ho =>
    generalize hcounted : (if sent then count .originsSent s else s) = s1
    have hsame : s1.stores = s.stores := by rw [← hcounted]; split <;> rfl
    have ho1 : s1.outbox[i]? = some o := by rw [← hcounted]; split <;> exact ho
    have hcount : Moves s s1 := moves_of_same hsame
    have hslot (st : OriginState) (x : OriginItem) (hx : s1.outbox[i]? = some x) : (o.repeatEnded sent).slot = x.slot := by
      rw [ho1] at hx
      cases hx
      rfl
    dsimp only
    split
    · have hdrawn : Moves s s1.drawn := hcount.tail (.same rfl)
      exact hdrawn.trans (moves_updateOrigin (hslot .held) fun _ _ hst => nomatch hst)
    · split
      · exact hcount.trans (moves_updateOrigin (hslot .held) fun _ _ hst => nomatch hst)
      · refine (hcount.trans (moves_updateOrigin (hslot .held) fun x hx hst => .inr ?_)).trans (moves_makeReport i _)
        rw [ho1] at hx
        cases hx
        exact hst

/-! ## The Transmit Controller -/

theorem moves_markContending (g : Granted) (s : State) : Moves s (markContending g s) := by
  cases g with
  | relay i => exact moves_updateRelay i (by exact fun _ => rfl) s
  | origin i =>
    refine moves_updateOrigin (fun _ _ => rfl) fun o _ hst => .inr ?_
    revert hst
    cases o.state <;> simp [OriginState.contend]

theorem moves_markSending (g : Granted) (s : State) : Moves s (markSending g s) := by
  cases g with
  | relay i => exact moves_updateRelay i (by exact fun _ => rfl) s
  | origin i =>
    refine moves_updateOrigin (fun _ _ => rfl) fun o _ hst => .inr ?_
    revert hst
    cases o.state <;> simp [OriginState.send]

theorem moves_addDeferral (g : Granted) (s : State) : Moves s (addDeferral g s) := by
  cases g with
  | relay i => exact moves_updateRelay i (by exact fun _ => rfl) s
  | origin i => exact moves_updateOrigin (fun _ _ => rfl) fun _ _ hst => .inr hst

theorem moves_abandon (g : Granted) (s : State) : Moves s (abandon g s) := by
  have hidle : Moves s (setController .idle (count .transmissionsAbandoned s)) := moves_of_same rfl
  unfold abandon
  cases g with
  | relay i =>
    dsimp only
    split
    · next hr => exact hidle.tail (.relayGone hr)
    · exact hidle
  | origin i => exact hidle.trans (moves_endRepeat false i _)

theorem moves_deferGranted (g : Granted) (s : State) : Moves s (deferGranted g s) := by
  unfold deferGranted
  dsimp only
  split
  · exact (moves_addDeferral g s).trans (moves_abandon g _)
  · exact moves_addDeferral g s

theorem moves_reportMedium (m : Medium) (s : State) : Moves s (reportMedium m s) := by
  unfold reportMedium
  dsimp only
  split
  · next g c _ _ =>
    exact Moves.after (moves_deferGranted g _) rfl
  · exact moves_of_same rfl

theorem moves_setMedium (m : Medium) (s : State) : Moves s (setMedium m s) := by
  unfold setMedium
  split
  · exact .refl
  · exact Moves.after (moves_reportMedium m _) rfl

theorem moves_drawBackoff (g : Granted) (s : State) : Moves s (drawBackoff g (markContending g s)) :=
  (moves_markContending g s).tail (.same rfl)

theorem moves_grant (s : State) : Moves s (grant s) := by
  unfold grant
  split
  · split
    · next g _ =>
      unfold grantItem
      dsimp only
      split
      · exact (moves_drawBackoff g s).trans (moves_deferGranted g _)
      · exact moves_drawBackoff g s
    · exact .refl
  · exact .refl

theorem moves_handCopyOver (g : Granted) (k : Key) (i : Identity) (hops slot : Nat) (s : State) :
    Moves s (handCopyOver g k i hops slot s) := (moves_markSending g s).tail (.same rfl)

theorem moves_backoffCompletion (s : State) : Moves s (backoffCompletion s) := by
  unfold backoffCompletion
  split
  · split
    · split
      · split
        · next hr =>
          split
          · exact (moves_suppressRelay hr).tail (.same rfl)
          · exact moves_handCopyOver _ _ _ _ _ s
        · exact moves_of_same rfl
      · split
        · exact moves_handCopyOver _ _ _ _ _ s
        · exact moves_of_same rfl
    · exact .refl
  · exact .refl

theorem moves_takeChecks (n : Nat) (s : State) : Moves s (takeChecks n s) := by
  induction n generalizing s with
  | zero => exact .refl
  | succ n ih =>
    refine Relation.ReflTransGen.trans ?_ (ih (nextCheck s))
    unfold nextCheck
    split
    · exact moves_grant s
    · exact moves_backoffCompletion s

theorem moves_handBackSent (g : Granted) (s : State) : Moves s (handBackSent g s) := by
  have hidle : Moves s (setController .idle s) := moves_of_same rfl
  unfold handBackSent
  cases g with
  | relay i =>
    dsimp only
    split
    · next hr => exact (hidle.tail (.relayGone hr)).tail (.same rfl)
    · exact hidle
  | origin i => exact hidle.trans (moves_endRepeat true i _)

/-! ## The Copy Assembler and its verdicts -/

theorem hear_claim (r : RelayItem) (k : Key) : (r.hear k).claim = r.claim := by
  unfold RelayItem.hear
  split <;> rfl

theorem moves_hearDuplicate (k : Key) (s : State) : Moves s (hearDuplicate k s) := by
  refine (StoreMove.relays ?_).moves
  rw [List.map_map]
  refine List.map_congr_left fun x _ => ?_
  cases x with
  | none => rfl
  | some r => exact congrArg some (hear_claim r k)

theorem moves_hearEcho (q : Sequence) (s : State) : Moves s (hearEcho q s) := by
  refine moves_mapOrigins (fun o => ?_) (fun o => ?_) s
  · unfold OriginItem.hearEcho
    split <;> rfl
  · unfold OriginItem.hearEcho
    split <;> exact id

/-- A copy is NEW only where neither the history nor an entry holds its key (R49). -/
theorem key_absent_of_new {s : State} {h : Header} (hv : verdictOf s h = .new) :
    h.key ∉ s.history ∧ findKey s.table h.key = none := by
  unfold verdictOf at hv
  split at hv
  · split at hv <;> cases hv
  · split at hv
    · cases hv
    · next hhistory =>
      split at hv
      · next hnone => exact ⟨hhistory, hnone⟩
      · split at hv <;> cases hv

theorem moves_giveVerdict (r : CopyRecord) (s : State) : Moves s (giveVerdict r s) := by
  have hcount (c : Counter) (u : State) : Moves u (count c u) := moves_of_same rfl
  have haccepted := hcount .copiesAccepted s
  unfold giveVerdict
  cases hv : verdictOf s r.header with
  | echo => exact (haccepted.trans (hcount .echoes _)).trans (moves_hearEcho _ _)
  | selfConflict => exact moves_of_same rfl
  | duplicate => exact (haccepted.trans (hcount .duplicates _)).trans (moves_hearDuplicate _ _)
  | keyConflict => exact moves_of_same rfl
  | matched i => exact haccepted.tail (.matched i r)
  | new =>
    obtain ⟨hhistory, htable⟩ := key_absent_of_new hv
    exact haccepted.tail (.opened r hhistory htable)

theorem moves_setAssembler {a : Assembler} {s : State} (h : s.assembler.Shaped → a.Shaped) :
    Moves s (setAssembler a s) := (StoreMove.assembler h).moves

theorem moves_begin (s : State) : Moves s (setAssembler Assembler.begin s) :=
  moves_setAssembler fun _ => ⟨List.length_replicate, List.length_replicate⟩

theorem moves_rejectHeader (s : State) : Moves s (rejectHeader s) :=
  (moves_setAssembler (a := { s.assembler with phase := .hunt }) fun h => ⟨h.headerSums, h.body⟩).tail (.same rfl)

theorem moves_closeCopy (next : AssemblerPhase) (s : State) : Moves s (closeCopy next s) := by
  unfold closeCopy
  split
  · next r _ => exact (moves_giveVerdict r s).trans (moves_setAssembler fun h => ⟨h.headerSums, h.body⟩)
  · exact moves_setAssembler fun h => ⟨h.headerSums, h.body⟩

theorem moves_truncateCopy (s : State) : Moves s (truncateCopy s) :=
  Moves.after (moves_closeCopy .hunt (count .copiesTruncated s)) rfl

theorem shaped_takeHeaderSymbol {a : Assembler} (v : Int) (e : Bool) (h : a.Shaped) : (a.takeHeaderSymbol v e).Shaped :=
  ⟨(List.length_modify ..).trans h.headerSums, h.body⟩

theorem shaped_takeBodySymbol {a : Assembler} (m : Nat) (v : Int) (e : Bool) (h : a.Shaped) :
    (a.takeBodySymbol m v e).Shaped :=
  ⟨h.headerSums, List.length_set.trans h.body⟩

theorem moves_headerSymbol (v : Int) (e : Bool) (s : State) : Moves s (headerSymbol v e s) := by
  have hsymbol : Moves s (setAssembler (s.assembler.takeHeaderSymbol v e) s) :=
    moves_setAssembler (shaped_takeHeaderSymbol v e)
  unfold headerSymbol
  dsimp only
  split
  · split
    · refine moves_setAssembler fun h => ?_
      have hs := shaped_takeHeaderSymbol v e h
      exact ⟨hs.headerSums, hs.body⟩
    · exact hsymbol.trans (moves_rejectHeader _)
  · split
    · exact hsymbol.trans (moves_rejectHeader _)
    · exact hsymbol

theorem moves_bodySymbol (v : Int) (e : Bool) (s : State) : Moves s (bodySymbol v e s) := by
  unfold bodySymbol
  split
  · exact .refl
  · next h _ =>
    have hsymbol : Moves s (setAssembler (s.assembler.takeBodySymbol (roundLength h.identity.length) v e) s) :=
      moves_setAssembler (shaped_takeBodySymbol _ v e)
    dsimp only
    split
    · exact hsymbol.trans (moves_closeCopy .tail _)
    · split
      · exact hsymbol.trans (moves_truncateCopy _)
      · exact hsymbol

theorem moves_assemble (ev : LineEvent) (s : State) : Moves s (assemble ev s) := by
  have hhunt : Moves s (setAssembler { s.assembler with phase := .hunt } s) :=
    moves_setAssembler fun h => ⟨h.headerSums, h.body⟩
  unfold assemble
  split
  · cases ev with
    | startMarker => exact moves_begin s
    | _ => exact .refl
  · cases ev with
    | dataSymbol v => exact moves_headerSymbol _ _ s
    | erasure => exact moves_headerSymbol _ _ s
    | startMarker => exact (moves_rejectHeader s).trans (moves_begin _)
    | endMarker => exact moves_rejectHeader s
    | silence => exact moves_rejectHeader s
  · cases ev with
    | dataSymbol v => exact moves_bodySymbol _ _ s
    | erasure => exact moves_bodySymbol _ _ s
    | startMarker => exact (moves_truncateCopy s).trans (moves_begin _)
    | endMarker => exact moves_truncateCopy s
    | silence => exact moves_truncateCopy s
  · cases ev with
    | dataSymbol _ => exact .refl
    | erasure => exact .refl
    | startMarker => exact moves_begin s
    | endMarker => exact hhunt
    | silence => exact hhunt

/-! ## Time and the line -/

theorem advance_stores (n : Nat) (s : State) : (advance n s).stores = s.stores := by simp [State.stores]

theorem moves_advance (n : Nat) (s : State) : Moves s (advance n s) := moves_of_same (advance_stores n s)

/-- Time runs, and the line is set to what the event makes of it. -/
theorem moves_runToTick_setLine (n : Nat) (l : Line) (s : State) : Moves s (setLine l (runToTick n s)) :=
  Relation.ReflTransGen.tail (moves_advance _ s) (.same rfl)

theorem moves_risingEdge (s : State) : Moves s (risingEdge s) := by
  unfold risingEdge
  split
  · exact (moves_runToTick_setLine _ _ s).trans (moves_setMedium .busy _)
  · exact .refl

theorem moves_fallingEdge (n : Nat) (s : State) : Moves s (fallingEdge n s) := by
  unfold fallingEdge
  split
  · exact (moves_runToTick_setLine _ _ s).trans (moves_assemble _ _)
  · exact .refl

theorem moves_endSpace (s : State) : Moves s (endSpace s) := by
  unfold endSpace
  split
  · have hordered : Moves s s.ordered := moves_of_same rfl
    exact ((hordered.trans (moves_setMedium .idle _)).trans (moves_takeChecks _ _)).trans (moves_assemble .silence _)
  · exact (moves_assemble .silence s).trans (moves_setMedium .idle _)

theorem moves_silence (s : State) : Moves s (silence s) := by
  unfold silence
  split
  · have hraised := moves_runToTick_setLine (s.line.tick + (Config.silenceTicks - s.line.spaceTimer))
      { (runToTick (s.line.tick + (Config.silenceTicks - s.line.spaceTimer)) s).line with
        spaceTimer := Config.silenceTicks, silenceRaised := true } s
    dsimp only
    split
    · exact hraised.trans (moves_setMedium .idle _)
    · exact hraised.trans (moves_endSpace _)
  · exact .refl

theorem moves_blindingEnd (s : State) : Moves s (blindingEnd s) := moves_of_same (by simp [State.stores])

theorem moves_slotEnd (s : State) : Moves s (slotEnd s) := moves_of_same (by simp [State.stores])

theorem moves_handOver (s : State) : Moves s (handOver s) := by
  unfold handOver
  split
  · next g h b _ =>
    split
    · unfold startTransmission
      exact Moves.after (moves_setMedium .busy _) rfl
    · unfold refuseHandOver
      exact (moves_drawBackoff g s).trans (Moves.after (moves_deferGranted g _) rfl)
  · exact .refl

theorem moves_transmissionComplete (s : State) : Moves s (transmissionComplete s) := by
  unfold transmissionComplete
  split
  · exact (moves_runToTick_setLine _ _ s).trans (moves_handBackSent _ _)
  · exact .refl

theorem moves_clockPeriod (s : State) : Moves s (clockPeriod s) := by
  have hpins : Moves s (takePins s) := moves_of_same rfl
  have hrun := hpins.trans (moves_advance 1 (takePins s))
  unfold clockPeriod sampleLine
  dsimp only
  split
  · exact hrun
  · split
    · exact hrun.tail (.same rfl)
    · exact hrun.tail (.same rfl)

/-! ## Deadlines -/

theorem moves_entryDeadline (i : Nat) (s : State) : Moves s (entryDeadline i s) := by
  unfold entryDeadline
  split
  · exact .refl
  · next e he =>
    split
    · exact .refl
    · have he' : entryAt (runToMilli e.deadline s) i = some e := by rw [runToMilli_entryAt]; exact he
      have hrun : Moves s (runToMilli e.deadline s) := moves_advance _ s
      dsimp only
      split
      · next hw => exact hrun.tail (.expired he' hw)
      · exact hrun.tail (.marked he')

theorem moves_relayHoldOffExpiry (i : Nat) (s : State) : Moves s (relayHoldOffExpiry i s) := by
  unfold relayHoldOffExpiry
  split
  · exact .refl
  · next r hr =>
    split
    · have hr' : relayAt (runToMilli r.holdOffDeadline s) i = some r := by rw [runToMilli_relayAt]; exact hr
      have hrun : Moves s (runToMilli r.holdOffDeadline s) := moves_advance _ s
      dsimp only
      split
      · exact hrun.trans (moves_suppressRelay hr')
      · exact hrun.trans (moves_updateRelay i (by exact fun _ => rfl) _)
    · exact .refl

theorem moves_originHoldOffExpiry (i : Nat) (s : State) : Moves s (originHoldOffExpiry i s) := by
  unfold originHoldOffExpiry
  split
  · exact .refl
  · split
    · next d _ =>
      have hrun : Moves s (runToMilli d s) := moves_advance _ s
      exact hrun.trans (moves_updateOrigin (fun _ _ => rfl) fun _ _ hst => nomatch hst)
    · exact .refl

theorem moves_echoDeadline (i : Nat) (s : State) : Moves s (echoDeadline i s) := by
  unfold echoDeadline
  split
  · exact .refl
  · split
    · next d _ =>
      have hrun : Moves s (runToMilli d s) := moves_advance _ s
      exact hrun.trans (moves_makeReport i _)
    · exact .refl

theorem moves_listenExpiry (s : State) : Moves s (listenExpiry s) := by
  unfold listenExpiry
  split
  · next d _ _ =>
    have hrun : Moves s (runToMilli d s) := moves_advance _ s
    refine (hrun.trans (moves_mapOrigins (f := fun o => o.release (runToMilli d s).station.milliTimer)
      (fun o => ?_) (fun o => ?_) _)).tail (.same rfl)
    · unfold OriginItem.release
      split <;> rfl
    · unfold OriginItem.release
      split
      · exact nofun
      · exact id
  · exact .refl

/-! ## The Decoder -/

theorem moves_decodeCompletion (s : State) : Moves s (decodeCompletion s) := by
  unfold decodeCompletion
  split
  · exact .refl
  · next d hd =>
    have hrun : Moves s (runToPeriod d.completion s) := moves_advance _ s
    have hd' : (runToPeriod d.completion s).decoder = some d := by rw [runToPeriod_decoder]; exact hd
    dsimp only
    split
    · exact hrun.tail (.recovered hd' _)
    · exact hrun.tail (.failed hd')

/-! ## The Host Port -/

theorem moves_respond (st : Status) (body : List Byte) (c : Commit) (s : State) : Moves s (respond st body c s) :=
  moves_of_same rfl

theorem moves_whenConfigured {take : State → State} {s : State} (h : Moves s (take s)) :
    Moves s (whenConfigured take s) := by
  unfold whenConfigured
  split
  · exact moves_respond _ _ _ s
  · exact h

theorem moves_takeSubmit (p : SubmitParams) (s : State) : Moves s (takeSubmit p s) := by
  unfold takeSubmit
  split
  · exact moves_respond _ _ _ s
  · split
    · next hroom => exact (StoreMove.submitted p hroom).moves.trans (moves_respond _ _ _ _)
    · exact moves_respond _ _ _ s

theorem moves_takeRequest (r : Request) (s : State) : Moves s (takeRequest r s) := by
  cases r with
  | configure p => exact moves_of_same (by simp [State.stores, takeRequest])
  | submit p => exact moves_whenConfigured (moves_takeSubmit p s)
  | collectMessage => exact moves_whenConfigured (moves_of_same (by simp [State.stores]))
  | collectReport => exact moves_whenConfigured (moves_of_same (by simp [State.stores]))
  | readStatus => exact moves_respond _ _ _ s
  | readCounters c => exact moves_of_same (by simp [State.stores, takeRequest])
  | clearEvents m => exact moves_whenConfigured (moves_of_same (by simp [State.stores]))
  | restart => exact moves_whenConfigured (take := fun s => answer .ok (restartPart s)) (.single (.emptied rfl))
  | malformed bs => exact moves_respond _ _ _ s

theorem moves_hostRequest (r : Request) (s : State) : Moves s (hostRequest r s) := by
  unfold hostRequest
  split
  · exact Moves.after (moves_takeRequest r _) rfl
  · exact .refl

theorem moves_commitResponse (r : Response) (s : State) : Moves s (commitResponse r s) := by
  unfold commitResponse
  split
  · exact .refl
  · split
    · exact StoreMove.messageCollected.moves
    · exact .refl
  · split
    · next h => exact (StoreMove.reportCollected fun hnil => by simp [hnil] at h).moves
    · exact .refl
  · exact moves_of_same rfl

theorem moves_finishResponse (r : Response) (s : State) : Moves s (finishResponse r s) :=
  Moves.after (moves_commitResponse r _) rfl

theorem moves_clockToEnd (kind : Commit) (s : State) : Moves s (clockToEnd kind s) := by
  unfold clockToEnd
  split
  · split
    · exact Moves.after (moves_finishResponse _ _) rfl
    · exact .refl
  · exact .refl

theorem moves_byteComplete (b : Byte) (s : State) : Moves s (byteComplete b s) := by
  have hport (p : Port) : Moves s (setPort p s) := moves_of_same rfl
  unfold byteComplete
  split
  · exact hport _
  · unfold requestByte
    dsimp only
    split
    · exact (hport _).trans (moves_takeRequest _ _)
    · exact hport _
  · unfold responseByte
    split
    · exact .refl
    · dsimp only
      split
      · exact (hport _).trans (moves_finishResponse _ _)
      · exact hport _
  · exact hport _

/-! ## Every step -/

theorem moves_resetPart (s : State) : Moves s (resetPart s) := .single (.emptied rfl)

theorem moves_rstnReset (s : State) : Moves s (rstnReset s) := by
  unfold rstnReset
  split
  · exact moves_of_same rfl
  · exact Moves.after (moves_resetPart (setRstn false s)) rfl

theorem moves_rstnRelease (s : State) : Moves s (rstnRelease s) := by
  unfold rstnRelease
  dsimp only
  split <;> exact moves_of_same rfl

/-- An effect as a command: taken whole, or not at all on a part held in reset (R170). -/
theorem moves_live {f : State → State} {s : State} (h : Moves s (f s)) : Moves s (live f s) := by
  unfold live
  split
  · exact .refl
  · exact h.tail (.same rfl)

/-- Every command is a chain of moves of the stores. -/
theorem moves_exec (c : Instr) (s t : State) (ht : exec c s = .next t) : Moves s t := by
  cases c with
  | powerOn => cases ht; exact moves_resetPart s
  | rstnReset => cases ht; exact moves_rstnReset s
  | rstnRelease => cases ht; exact moves_rstnRelease s
  | risingEdge => cases ht; exact (moves_live (moves_risingEdge _)).after rfl
  | fallingEdge n => cases ht; exact (moves_live (moves_fallingEdge _ _)).after rfl
  | silence => cases ht; exact moves_live (moves_silence s)
  | blindingEnd => cases ht; exact moves_live (moves_blindingEnd s)
  | slotEnd => cases ht; exact moves_live (moves_slotEnd s)
  | backoffCompletion => cases ht; exact moves_live (moves_backoffCompletion s)
  | handOver => cases ht; exact moves_live (moves_handOver s)
  | transmissionComplete => cases ht; exact moves_live (moves_transmissionComplete s)
  | grant => cases ht; exact moves_live (moves_grant s)
  | decoderTake => cases ht; exact moves_live StoreMove.taken.moves
  | decodeCompletion => cases ht; exact moves_live (moves_decodeCompletion s)
  | entryDeadline i => cases ht; exact moves_live (moves_entryDeadline i s)
  | relayHoldOffExpiry i => cases ht; exact moves_live (moves_relayHoldOffExpiry i s)
  | originHoldOffExpiry i => cases ht; exact moves_live (moves_originHoldOffExpiry i s)
  | echoDeadline i => cases ht; exact moves_live (moves_echoDeadline i s)
  | listenExpiry => cases ht; exact moves_live (moves_listenExpiry s)
  | csnFall =>
    cases ht
    refine (moves_live (s := setCsn false s) ?_).after rfl
    split
    · exact moves_of_same rfl
    · exact .refl
  | csnRise => cases ht; exact (moves_live (s := setCsn true s) (moves_of_same rfl)).after rfl
  | configure _ | submit _ | collectMessage | collectReport | readStatus | readCounters _ | clearEvents _ | restart
  | malformedRequest _ => cases ht; exact moves_live (moves_hostRequest _ s)
  | byteComplete b => cases ht; exact moves_live (moves_byteComplete b s)
  | collectMessageFinalByte | collectReportFinalByte | readCountersFinalByte =>
    cases ht; exact moves_live (moves_clockToEnd _ s)

/-- A property that every move of the stores keeps is kept by every step. -/
theorem step_keeps_of_moves {P : State → Prop} (hmove : ∀ s t, P s → StoreMove s t → P t) {s t : State} (hs : P s)
    (ht : step s = .next t) : P t :=
  step_keeps (P := P) (fun c s t hs ht => (moves_exec c s t ht).keeps hmove hs)
    (fun s hs => (moves_clockPeriod s).keeps hmove hs) (fun _ _ hs => hmove _ _ hs (.same rfl))
    (fun _ hs => hmove _ _ hs (.same rfl)) hs ht

end Sys2Proof.Machine
end

section
/-! PROOFS. The request for a relay item: declined, refused for want of room, or made (R110 to R113). -/

namespace Sys2Proof.Machine

theorem relayWanted_iff (s : State) (e : Entry) : relayWanted s e = true ↔ RelayAsked s e := by
  simp only [relayWanted, RelayAsked, Bool.and_eq_true, beq_iff_eq, decide_eq_true_eq, Bool.not_eq_true',
    Bool.and_eq_false_iff, beq_eq_false_iff_ne, List.all_eq_true, bne_iff_ne, and_assoc, ne_eq, not_and_or]

theorem relayPlace_eq_none {relays : List (Option RelayItem)} : relayPlace relays = none ↔ none ∉ relays := by
  rw [relayPlace, List.findIdx?_eq_none_iff]
  constructor
  · intro h hnone
    cases h none hnone
  · intro h x hx
    cases x with
    | none => exact absurd hx h
    | some r => rfl

theorem relayPlace_eq_some {relays : List (Option RelayItem)} {i : Nat} (h : relayPlace relays = some i) :
    relays[i]? = some none ∧ ∀ j, j < i → relays[j]? ≠ some none := by
  obtain ⟨hlt, hnone, hfirst⟩ := List.findIdx?_eq_some_iff_getElem.1 h
  refine ⟨by rw [List.getElem?_eq_getElem hlt, Option.isNone_iff_eq_none.1 hnone], fun j hj hjnone => ?_⟩
  rw [List.getElem?_eq_getElem (hj.trans hlt)] at hjnone
  exact hfirst j hj (by rw [Option.some.inj hjnone]; rfl)

/-- The state with the relay item of a request made at an index, its slot not yet held (R112, R113). -/
def withRelay (e : Entry) (slot i : Nat) (s : State) : State :=
  { s.drawn with
    relays := s.relays.set i (some (newRelay e slot
      (deadlineAfter s.station.milliTimer (s.nextDraw (s.cfg.holdOffRange e.identity.urgent))))) }

/-- All that a request for a relay item can do (R110, R111, R112). -/
theorem requestRelay_cases (e : Entry) (slot : Nat) (s : State) :
    (¬ RelayAsked s e ∧ requestRelay e slot s = s)
    ∨ (RelayAsked s e ∧ none ∉ s.relays ∧ requestRelay e slot s = flagScheduleFull (count .relaysRefused s))
    ∨ (RelayAsked s e ∧ ∃ i, s.relays[i]? = some none ∧ (∀ j, j < i → s.relays[j]? ≠ some none)
      ∧ requestRelay e slot s = holdSlot slot .relay (withRelay e slot i s)) := by
  unfold requestRelay
  by_cases hw : relayWanted s e = true
  · have hasked := (relayWanted_iff s e).1 hw
    rw [if_pos hw]
    cases hi : relayPlace s.relays with
    | none => exact .inr (.inl ⟨hasked, relayPlace_eq_none.1 hi, rfl⟩)
    | some i =>
      obtain ⟨hfree, hfirst⟩ := relayPlace_eq_some hi
      exact .inr (.inr ⟨hasked, i, hfree, hfirst, rfl⟩)
  · exact .inl ⟨fun h => hw ((relayWanted_iff s e).2 h), if_neg hw⟩

end Sys2Proof.Machine
end

section
/-! PROOFS. Each key in one place: the table with the Decode Queue, the history and the Decoder, and the Relay Schedule
(O58). -/

namespace Sys2Proof.Machine

/-! ## The table as its keys and states -/

/-- What the agreement of the keys reads of a table: the key and the state of each occupied entry. -/
def tableView (table : List (Option Entry)) (i : Nat) : Option (Key × EntryState) :=
  (table.getD i none).map fun e => (e.key, e.state)

theorem tableView_of_entryAt {s : State} {i : Nat} {e : Entry} (h : entryAt s i = some e) :
    tableView s.table i = some (e.key, e.state) := by
  show (entryAt s i).map _ = _
  rw [h]
  rfl

theorem tableView_eq_some {s : State} {i : Nat} {k : Key} {x : EntryState} :
    tableView s.table i = some (k, x) ↔ ∃ e, entryAt s i = some e ∧ e.key = k ∧ e.state = x := by
  refine Option.map_eq_some_iff.trans (exists_congr fun e => and_congr_right fun _ => ?_)
  rw [Prod.mk.injEq]

theorem lt_length_of_entryAt {s : State} {i : Nat} {e : Entry} (h : entryAt s i = some e) : i < s.table.length :=
  (List.getElem?_eq_some_iff.1 (table_of_entryAt h)).1

/-- A place of the table set. -/
theorem tableView_set {table : List (Option Entry)} {i : Nat} (hi : i < table.length) (e : Entry) :
    tableView (table.set i (some e)) = Function.update (tableView table) i (some (e.key, e.state)) := by
  funext j
  by_cases hij : j = i
  · subst hij
    simp [tableView, hi]
  · rw [Function.update_of_ne hij]
    simp [tableView, Ne.symm hij]

/-- A place of the table made FREE. -/
theorem tableView_set_none (table : List (Option Entry)) (i : Nat) :
    tableView (table.set i none) = Function.update (tableView table) i none := by
  funext j
  by_cases hij : j = i
  · subst hij
    rw [Function.update_self]
    simp only [tableView, List.getD_eq_getElem?_getD, List.getElem?_set, if_true]
    split <;> rfl
  · rw [Function.update_of_ne hij]
    simp [tableView, Ne.symm hij]

/-- An entry put back under its key and in its state changes nothing of what is read. -/
theorem tableView_set_same {s : State} {i : Nat} {e f : Entry} (he : entryAt s i = some e) (hk : f.key = e.key)
    (hst : f.state = e.state) : tableView (s.table.set i (some f)) = tableView s.table := by
  rw [tableView_set (lt_length_of_entryAt he), hk, hst, ← tableView_of_entryAt he, Function.update_eq_self]

/-! ## Entries, queue, history and Decoder in agreement -/

/-- A key that stands in neither the history nor the table. -/
def KeyAbsent (k : Key) (view : Nat → Option (Key × EntryState)) (keys : List Key) : Prop :=
  k ∉ keys ∧ ∀ i x, view i ≠ some (k, x)

/-- What `State.KeysApart` says of the table, the Decode Queue, the history's keys and the entry being decoded. -/
structure TableApart (view : Nat → Option (Key × EntryState)) (queue : List Nat) (keys : List Key)
    (decoded : Option Nat) : Prop where
  distinct : ∀ i j k x y, view i = some (k, x) → view j = some (k, y) → i = j
  keysNodup : keys.Nodup
  apart : ∀ i k x, view i = some (k, x) → k ∉ keys
  queueNodup : queue.Nodup
  queued : ∀ i, i ∈ queue ↔ ∃ k, view i = some (k, .queued)
  decoding : ∀ i, decoded = some i ↔ ∃ k, view i = some (k, .decoding)

theorem keysApart_iff (s : State) :
    s.KeysApart ↔
      TableApart (tableView s.table) s.decodeQueue s.history (s.decoder.map Decode.entry)
      ∧ ∀ i j r q, relayAt s i = some r → relayAt s j = some q → r.key = q.key → i = j := by
  have hstate (i : Nat) (x : EntryState) :
      (∃ k, tableView s.table i = some (k, x)) ↔ ∃ e, entryAt s i = some e ∧ e.state = x := by
    simp only [tableView_eq_some]
    constructor
    · rintro ⟨k, e, he, -, hx⟩
      exact ⟨e, he, hx⟩
    · rintro ⟨e, he, hx⟩
      exact ⟨e.key, e, he, rfl, hx⟩
  have hdecoded (i : Nat) : s.decoder.map Decode.entry = some i ↔ ∃ d, s.decoder = some d ∧ d.entry = i :=
    Option.map_eq_some_iff
  constructor
  · intro h
    refine ⟨⟨fun i j k x y hi hj => ?_, h.history, fun i k x hi => ?_, h.queue, fun i => ?_, fun i => ?_⟩, h.relays⟩
    · obtain ⟨e, he, hk, -⟩ := tableView_eq_some.1 hi
      obtain ⟨f, hf, hk', -⟩ := tableView_eq_some.1 hj
      exact h.distinct i j e f he hf (hk.trans hk'.symm)
    · obtain ⟨e, he, rfl, -⟩ := tableView_eq_some.1 hi
      exact h.apart i e he
    · rw [hstate]
      exact h.queued i
    · rw [hstate, hdecoded]
      exact (h.decoding i).symm
  · rintro ⟨h, hrelays⟩
    refine ⟨fun i j e f he hf hk => ?_, hrelays, h.keysNodup, fun i e he => ?_, h.queueNodup, fun i => ?_, fun i => ?_⟩
    · exact h.distinct i j e.key e.state f.state (tableView_of_entryAt he) (hk ▸ tableView_of_entryAt hf)
    · exact h.apart i e.key e.state (tableView_of_entryAt he)
    · rw [← hstate]
      exact h.queued i
    · rw [← hstate, ← hdecoded]
      exact (h.decoding i).symm

namespace TableApart

variable {view : Nat → Option (Key × EntryState)} {queue queue' : List Nat} {keys : List Key}
  {decoded decoded' : Option Nat} {i : Nat} {k : Key} {x : EntryState}

/-- Once its entry is gone, the key of an entry is in no place. -/
theorem keyAbsent_of_entry (h : TableApart view queue keys decoded) (hi : view i = some (k, x)) :
    KeyAbsent k (Function.update view i none) keys := by
  refine ⟨h.apart i k x hi, fun j y hj => ?_⟩
  by_cases hij : j = i
  · rw [hij, Function.update_self] at hj
    cases hj
  · rw [Function.update_of_ne hij] at hj
    exact hij (h.distinct j i k y x hj hi)

/-- The entry at an index is gone, and with it its places in the Decode Queue and in the Decoder. -/
theorem vacate (h : TableApart view queue keys decoded) (i : Nat) (hnodup : queue'.Nodup)
    (hqueue : ∀ j, j ∈ queue' ↔ j ∈ queue ∧ j ≠ i)
    (hdecoded : ∀ j, decoded' = some j ↔ decoded = some j ∧ j ≠ i) :
    TableApart (Function.update view i none) queue' keys decoded' := by
  have hview (j : Nat) (y : Key × EntryState) : Function.update view i none j = some y ↔ view j = some y ∧ j ≠ i := by
    by_cases hij : j = i
    · simp [hij]
    · simp [hij]
  refine ⟨fun j l q y z hj hl => ?_, h.keysNodup, fun j q y hj => ?_, hnodup, fun j => ?_, fun j => ?_⟩
  · exact h.distinct j l q y z ((hview _ _).1 hj).1 ((hview _ _).1 hl).1
  · exact h.apart j q y ((hview _ _).1 hj).1
  · simp only [hview, hqueue, h.queued, exists_and_right]
  · simp only [hview, hdecoded, h.decoding, exists_and_right]

/-- An entry comes to a vacant index under a key that is in no place; QUEUED it joins the Decode Queue, DECODING it is
the Decoder's. -/
theorem fill (h : TableApart view queue keys decoded) (hi : view i = none) (hk : KeyAbsent k view keys)
    (hnodup : queue'.Nodup) (hqueue : ∀ j, j ∈ queue' ↔ j ∈ queue ∨ (j = i ∧ x = .queued))
    (hdecoded : ∀ j, decoded' = some j ↔ decoded = some j ∨ (j = i ∧ x = .decoding)) :
    TableApart (Function.update view i (some (k, x))) queue' keys decoded' := by
  have hview (j : Nat) (y : Key × EntryState) :
      Function.update view i (some (k, x)) j = some y ↔ view j = some y ∨ (j = i ∧ y = (k, x)) := by
    by_cases hij : j = i
    · simp [hij, hi, eq_comm]
    · simp [hij]
  obtain ⟨hhistory, hother⟩ := hk
  refine ⟨fun j l q y z hj hl => ?_, h.keysNodup, fun j q y hj => ?_, hnodup, fun j => ?_, fun j => ?_⟩
  · rcases (hview _ _).1 hj with hjold | ⟨hji, hjk⟩
    · rcases (hview _ _).1 hl with hlold | ⟨-, hlk⟩
      · exact h.distinct j l q y z hjold hlold
      · exact absurd ((Prod.mk.inj hlk).1 ▸ hjold) (hother j y)
    · rcases (hview _ _).1 hl with hlold | ⟨hli, -⟩
      · exact absurd ((Prod.mk.inj hjk).1 ▸ hlold) (hother l z)
      · exact hji.trans hli.symm
  · rcases (hview _ _).1 hj with hj | ⟨-, hq⟩
    · exact h.apart j q y hj
    · obtain ⟨rfl, -⟩ := Prod.mk.inj hq
      exact hhistory
  · simp only [hview, hqueue, h.queued, exists_or, Prod.mk.injEq, exists_and_left, exists_eq_left, eq_comm (b := x)]
  · simp only [hview, hdecoded, h.decoding, exists_or, Prod.mk.injEq, exists_and_left, exists_eq_left, eq_comm (b := x)]

/-- An index in neither the Decode Queue nor the Decoder is vacated. -/
theorem free (h : TableApart view queue keys decoded) (hqueue : i ∉ queue) (hdecoded : decoded ≠ some i) :
    TableApart (Function.update view i none) queue keys decoded :=
  h.vacate i h.queueNodup (fun j => (and_iff_left_of_imp fun hj (hij : j = i) => hqueue (hij ▸ hj)).symm)
    fun j => (and_iff_left_of_imp fun hj (hij : j = i) => hdecoded (hij ▸ hj)).symm

/-- What a WAITING entry takes no part in. -/
theorem not_queued_of_waiting (h : TableApart view queue keys decoded) (hi : view i = some (k, .waiting)) :
    i ∉ queue ∧ decoded ≠ some i := by
  constructor
  · intro hq
    obtain ⟨_, hq⟩ := (h.queued i).1 hq
    cases hi.symm.trans hq
  · intro hd
    obtain ⟨_, hd⟩ := (h.decoding i).1 hd
    cases hi.symm.trans hd

theorem not_queued_of_none (h : TableApart view queue keys decoded) (hi : view i = none) : i ∉ queue := fun hq => by
  obtain ⟨_, hq⟩ := (h.queued i).1 hq
  cases hi.symm.trans hq

/-- A vacant index is filled by a WAITING entry (R58, R69). -/
theorem fill_waiting (h : TableApart view queue keys decoded) (hi : view i = none) (hk : KeyAbsent k view keys) :
    TableApart (Function.update view i (some (k, .waiting))) queue keys decoded :=
  h.fill hi hk h.queueNodup (by simp) (by simp)

/-- A vacant index is filled by an entry that joins the Decode Queue (R61, R62). -/
theorem fill_queued (h : TableApart view queue keys decoded) (hi : view i = none) (hk : KeyAbsent k view keys) :
    TableApart (Function.update view i (some (k, .queued))) (queue ++ [i]) keys decoded := by
  refine h.fill hi hk ?_ (by simp) (by simp)
  exact h.queueNodup.append (List.nodup_singleton i) (by simpa using h.not_queued_of_none hi)

/-- The head of the Decode Queue goes to the Decoder (R63). -/
theorem takeHead (h : TableApart view (i :: queue) keys none) (hi : view i = some (k, x)) :
    TableApart (Function.update view i (some (k, .decoding))) queue keys (some i) := by
  obtain ⟨hnot, hnodup⟩ := List.nodup_cons.1 h.queueNodup
  have hgone : TableApart (Function.update view i none) queue keys none := by
    refine h.vacate i hnodup (fun j => ?_) (by simp)
    rw [List.mem_cons]
    constructor
    · exact fun hj => ⟨.inr hj, fun hij => hnot (hij ▸ hj)⟩
    · exact fun ⟨hj, hij⟩ => hj.resolve_left hij
  have hfilled := hgone.fill (x := .decoding) (decoded' := some i) (Function.update_self ..) (h.keyAbsent_of_entry hi)
    hnodup (by simp) (by simp [eq_comm])
  rwa [Function.update_idem] at hfilled

/-- The Decoder lets go of its entry (R68, R69). -/
theorem release (h : TableApart view queue keys (some i)) : TableApart (Function.update view i none) queue keys none := by
  refine h.vacate i h.queueNodup (fun j => ?_) (by simp [eq_comm])
  refine (and_iff_left_of_imp fun hj hij => ?_).symm
  subst hij
  obtain ⟨_, hq⟩ := (h.queued j).1 hj
  obtain ⟨_, hd⟩ := (h.decoding j).1 rfl
  cases hq.symm.trans hd

/-- An entry that is not DECODING is evicted (R57). -/
theorem evict (h : TableApart view queue keys decoded) (hdecoded : decoded ≠ some i) :
    TableApart (Function.update view i none) (queue.filter fun j => j != i) keys decoded :=
  h.vacate i (h.queueNodup.filter _) (by simp)
    fun j => (and_iff_left_of_imp fun hj (hij : j = i) => hdecoded (hij ▸ hj)).symm

/-- A key that is in no place becomes the newest of the history (R94). -/
theorem insertKey (h : TableApart view queue keys decoded) (hk : KeyAbsent k view keys) :
    TableApart view queue (insertKey keys k) decoded := by
  obtain ⟨hhistory, hview⟩ := hk
  have hsub : (if keys.length < Config.historyKeys then keys else keys.tail).Sublist keys := by
    split
    · exact .refl _
    · exact List.tail_sublist keys
  have hmem {q : Key} (hq : q ∈ Machine.insertKey keys k) : q ∈ keys ∨ q = k := by
    rcases List.mem_append.1 hq with hq | hq
    · exact .inl (hsub.subset hq)
    · exact .inr (List.mem_singleton.1 hq)
  refine ⟨h.distinct, ?_, fun i q x hi hq => ?_, h.queueNodup, h.queued, h.decoding⟩
  · refine (h.keysNodup.sublist hsub).append (List.nodup_singleton k) ?_
    simpa using fun hq => hhistory (hsub.subset hq)
  · rcases hmem hq with hq | rfl
    · exact h.apart i q x hi hq
    · exact hview i x hi

end TableApart

/-! ## The Combining Table's operations -/

/-- What the agreement says of a state's table. -/
abbrev State.TableAgrees (s : State) : Prop :=
  TableApart (tableView s.table) s.decodeQueue s.history (s.decoder.map Decode.entry)

theorem entryAt_freeEntry (s : State) : entryAt s (freeEntry s.table) = none := by
  unfold entryAt freeEntry
  cases hi : s.table.findIdx? Option.isNone with
  | none => simp
  | some i =>
    obtain ⟨hlt, hnone, -⟩ := List.findIdx?_eq_some_iff_getElem.1 hi
    simpa [hlt] using hnone

/-- The entry to evict is one that is not DECODING (R57). -/
theorem not_decoding_of_evictee {s : State} {i : Nat} (h : evictee s = some i) :
    ∃ e, entryAt s i = some e ∧ e.state ≠ .decoding := by
  obtain ⟨a, ha, rfl⟩ := Option.map_eq_some_iff.1 h
  obtain ⟨x, hx, rfl⟩ := List.mem_filterMap.1 (firstBy_mem _ _ _ ha)
  obtain ⟨j, hj, hx⟩ := List.mem_mapIdx.1 hx
  cases he : s.table[j] with
  | none => simp [evictable, he] at hx
  | some e =>
    by_cases hst : e.state = .decoding
    · simp [evictable, he, hst] at hx
    · simp only [evictable, he, if_neg hst, Option.some.injEq] at hx
      exact ⟨e, entryAt_of_table (by rw [← hx, List.getElem?_eq_getElem hj, he]), hst⟩

theorem keyAbsent_evict {s : State} {k : Key} (h : KeyAbsent k (tableView s.table) s.history) :
    KeyAbsent k (tableView (evict s).table) (evict s).history := by
  rw [evict_history]
  refine ⟨h.1, fun j x => ?_⟩
  unfold evict
  split
  · next i _ =>
    simp only [count_table, tableView_set_none]
    by_cases hij : j = i
    · rw [hij, Function.update_self]
      exact nofun
    · rw [Function.update_of_ne hij]
      exact h.2 j x
  · exact h.2 j x

section
variable {s : State} (h : s.TableAgrees)
include h

/-- An entry put back under its key and in its state. -/
theorem tableAgrees_putEntry_same {i : Nat} {e f : Entry} (he : entryAt s i = some e) (hk : f.key = e.key)
    (hst : f.state = e.state) : (putEntry i (some f) s).TableAgrees := by
  show TableApart (tableView (s.table.set i (some f))) s.decodeQueue s.history (s.decoder.map Decode.entry)
  rwa [tableView_set_same he hk hst]

/-- A WAITING entry that passes the coverage gate joins the Decode Queue (R61). -/
theorem tableAgrees_gate (i : Nat) : (gate i s).TableAgrees := by
  unfold gate
  split
  · next e he =>
    split
    · next hgate =>
      have hview := tableView_of_entryAt he
      rw [hgate.1] at hview
      obtain ⟨hqueue, hdecoded⟩ := h.not_queued_of_waiting hview
      have hfilled := (h.free hqueue hdecoded).fill_queued (Function.update_self ..) (h.keyAbsent_of_entry hview)
      rw [Function.update_idem, ← tableView_set (lt_length_of_entryAt he) { e with state := .queued }] at hfilled
      exact hfilled
    · exact h
  · exact h

/-- A FREE index is filled by a WAITING entry under a new key (R58). -/
theorem tableAgrees_putEntry_new {i : Nat} (hfree : entryAt s i = none) {e : Entry} (hw : e.state = .waiting)
    (hk : KeyAbsent e.key (tableView s.table) s.history) : (putEntry i (some e) s).TableAgrees := by
  by_cases hi : i < s.table.length
  · have hnone : tableView s.table i = none := by
      show (entryAt s i).map _ = none
      rw [hfree]
      rfl
    have hfilled := h.fill_waiting hnone hk
    rw [← hw, ← tableView_set hi] at hfilled
    exact hfilled
  · have hsame : s.table.set i (some e) = s.table := List.set_eq_of_length_le (Nat.le_of_not_lt hi)
    show TableApart (tableView (s.table.set i (some e))) s.decodeQueue s.history (s.decoder.map Decode.entry)
    rwa [hsame]

/-- A MATCH copy keeps the key and the state of its entry, but for the gate (R59 to R61). -/
theorem tableAgrees_matchCopy (i : Nat) (r : CopyRecord) : (matchCopy i r s).TableAgrees := by
  unfold matchCopy
  split
  · exact h
  · next e he =>
    dsimp only
    split
    · exact tableAgrees_gate
        (tableAgrees_putEntry_same (f := (e.hear r.header).merge r.confidences) h he rfl rfl) i
    · exact tableAgrees_putEntry_same h he rfl rfl

/-- An entry evicted is not DECODING (R57). -/
theorem tableAgrees_evict : (evict s).TableAgrees := by
  unfold evict
  split
  · next i hi =>
    obtain ⟨e, he, hst⟩ := not_decoding_of_evictee hi
    have hdecoded : s.decoder.map Decode.entry ≠ some i := fun hd => by
      obtain ⟨_, hd⟩ := (h.decoding i).1 hd
      exact hst (Prod.mk.inj (Option.some.inj ((tableView_of_entryAt he).symm.trans hd))).2
    have hgone := h.evict hdecoded
    rw [← tableView_set_none] at hgone
    exact hgone
  · exact h

/-- A NEW copy comes to a FREE index (R56, R58). -/
theorem tableAgrees_openEntry (r : CopyRecord) (hk : KeyAbsent r.header.key (tableView s.table) s.history) :
    (openEntry r s).TableAgrees := by
  have hroom : (if s.table.all Option.isSome then evict s else s).TableAgrees
      ∧ KeyAbsent r.header.key (tableView (if s.table.all Option.isSome then evict s else s).table)
        (if s.table.all Option.isSome then evict s else s).history := by
    split
    · exact ⟨tableAgrees_evict h, keyAbsent_evict hk⟩
    · exact ⟨h, hk⟩
  obtain ⟨hagrees, habsent⟩ := hroom
  exact tableAgrees_gate (tableAgrees_putEntry_new hagrees (entryAt_freeEntry _) rfl habsent) _

/-- The deadline of a WAITING entry (R65). -/
theorem tableAgrees_expireEntry {i : Nat} {e : Entry} (he : entryAt s i = some e) (hw : e.state = .waiting) :
    (expireEntry i s).TableAgrees := by
  have hview := tableView_of_entryAt he
  rw [hw] at hview
  obtain ⟨hqueue, hdecoded⟩ := h.not_queued_of_waiting hview
  have hgone := h.free hqueue hdecoded
  rw [← tableView_set_none] at hgone
  exact hgone

/-- The Decoder's take (R63). -/
theorem tableAgrees_decoderTake : (decoderTake s).TableAgrees := by
  unfold decoderTake
  split
  · next i rest hd hq =>
    split
    · exact h
    · next e he =>
      have h' : TableApart (tableView s.table) (i :: rest) s.history none := by
        have h0 := h
        rw [State.TableAgrees, hd, hq] at h0
        exact h0
      have htaken := h'.takeHead (tableView_of_entryAt he)
      rw [← tableView_set (lt_length_of_entryAt he) { e with state := .decoding }] at htaken
      exact htaken
  · exact h

/-- The entry that the Decoder holds (R55, R77). -/
theorem entryAt_of_decoder {d : Decode} (hd : s.decoder = some d) : ∃ e, entryAt s d.entry = some e := by
  obtain ⟨k, hk⟩ := (h.decoding d.entry).1 (by rw [hd]; rfl)
  obtain ⟨e, he, -⟩ := tableView_eq_some.1 hk
  exact ⟨e, he⟩

/-- The table once the Decoder has let go of its entry. -/
theorem tableApart_of_decoder {d : Decode} (hd : s.decoder = some d) :
    TableApart (Function.update (tableView s.table) d.entry none) s.decodeQueue s.history none := by
  have h' : TableApart (tableView s.table) s.decodeQueue s.history (some d.entry) := by
    have h0 := h
    rw [State.TableAgrees, hd] at h0
    exact h0
  exact h'.release

/-- A decode that succeeds: the entry freed, its key the newest of the history (R68, R94). -/
theorem tableAgrees_decodeSuccess {d : Decode} (hd : s.decoder = some d) (payload : List Byte) :
    (decodeSuccess d payload s).TableAgrees := by
  obtain ⟨e, he⟩ := entryAt_of_decoder h hd
  have he' : entryAt (writeSlot d.slot payload s) d.entry = some e := he
  have hkept := (tableApart_of_decoder h hd).insertKey (h.keyAbsent_of_entry (tableView_of_entryAt he))
  rw [← tableView_set_none] at hkept
  simp only [decodeSuccess, he', State.TableAgrees, endDecode_table, endDecode_decodeQueue, endDecode_history,
    deliver_table, deliver_decodeQueue, deliver_history]
  exact hkept

/-- A decode that fails: the entry freed, QUEUED again or WAITING (R69). -/
theorem tableAgrees_decodeFailure {d : Decode} (hd : s.decoder = some d) : (decodeFailure d s).TableAgrees := by
  obtain ⟨e, he⟩ := entryAt_of_decoder h hd
  have he' : entryAt (count .decodesFailed (endDecode d.slot s)) d.entry = some e := he
  have hgone := tableApart_of_decoder h hd
  have hkey := h.keyAbsent_of_entry (tableView_of_entryAt he)
  simp only [decodeFailure, settleFailure, he']
  split
  · rw [← tableView_set_none] at hgone
    exact hgone
  · split
    · have hqueued := hgone.fill_queued (Function.update_self ..) hkey
      rw [Function.update_idem,
        ← tableView_set (lt_length_of_entryAt he) { e with state := .queued, recheck := false }] at hqueued
      exact hqueued
    · have hwaiting := hgone.fill_waiting (Function.update_self ..) hkey
      rw [Function.update_idem,
        ← tableView_set (lt_length_of_entryAt he) { e with state := .waiting, recheck := false }] at hwaiting
      exact hwaiting

end

/-! ## The Relay Schedule -/

/-- No two relay items share a key (R109). -/
def State.RelayKeysApart (s : State) : Prop :=
  ∀ i j r q, relayAt s i = some r → relayAt s j = some q → r.key = q.key → i = j

/-- Where the relay items' keys and slots stand as they did, each item has had its key and its slot before. -/
theorem relayAt_of_claims {rs : List (Option RelayItem)} {s : State}
    (h : rs.map (Option.map RelayItem.claim) = s.relays.map (Option.map RelayItem.claim)) (i : Nat) :
    (relayAt { s with relays := rs } i).map RelayItem.claim = (relayAt s i).map RelayItem.claim := by
  have hread (l : List (Option RelayItem)) :
      (l.getD i none).map RelayItem.claim = (l.map (Option.map RelayItem.claim)).getD i none := by
    rw [List.getD_eq_getElem?_getD, List.getD_eq_getElem?_getD, List.getElem?_map]
    cases l[i]? <;> rfl
  exact (hread rs).trans (h ▸ (hread s.relays).symm)

section
variable {s t : State} (h : s.RelayKeysApart)
include h

/-- Items that stood under their keys before are apart as before. -/
theorem State.RelayKeysApart.of_stood
    (hstood : ∀ i r, relayAt t i = some r → ∃ q, relayAt s i = some q ∧ q.key = r.key) : t.RelayKeysApart := by
  intro i j r q hi hj hk
  obtain ⟨r', hr', hrk⟩ := hstood i r hi
  obtain ⟨q', hq', hqk⟩ := hstood j q hj
  exact h i j r' q' hr' hq' (by rw [hrk, hqk, hk])

theorem relayKeysApart_congr (ht : t.relays = s.relays) : t.RelayKeysApart :=
  h.of_stood fun i r hr => ⟨r, (relayAt_congr i ht).symm.trans hr, rfl⟩

theorem relayKeysApart_inPlace {rs : List (Option RelayItem)}
    (hrs : rs.map (Option.map RelayItem.claim) = s.relays.map (Option.map RelayItem.claim)) :
    ({ s with relays := rs } : State).RelayKeysApart := by
  refine h.of_stood fun i r hr => ?_
  have hclaim := relayAt_of_claims hrs i
  rw [hr] at hclaim
  obtain ⟨q, hq, hc⟩ := Option.map_eq_some_iff.1 hclaim.symm
  exact ⟨q, hq, congrArg Prod.fst hc⟩

theorem relayKeysApart_dropRelay (i : Nat) (item : RelayItem) : (dropRelay i item s).RelayKeysApart := by
  refine h.of_stood fun j r hr => ⟨r, ?_, rfl⟩
  cases hj : relayAt s j with
  | none => cases (relayAt_dropRelay_none j i item s hj).symm.trans hr
  | some q =>
    by_cases hij : i = j
    · subst hij
      cases (relayAt_dropRelay_self i item s).symm.trans hr
    · simp only [relayAt, dropRelay, releaseSlot, List.getD_eq_getElem?_getD, List.getElem?_set, if_neg hij] at hr hj
      exact hj.symm.trans hr

/-- A relay item is made only for a key that no item has (R110). -/
theorem relayKeysApart_requestRelay (e : Entry) (slot : Nat) : (requestRelay e slot s).RelayKeysApart := by
  rcases requestRelay_cases e slot s with ⟨-, heq⟩ | ⟨-, -, heq⟩ | ⟨⟨-, -, -, -, hnew⟩, i, hfree, -, heq⟩
  · rwa [heq]
  · rw [heq]
    exact relayKeysApart_congr h rfl
  · rw [heq]
    have hother (j : Nat) (q : RelayItem) (hq : relayAt s j = some q) : q.key ≠ e.key := fun hk =>
      hnew _ (List.mem_of_getElem? (relays_of_relayAt hq)) (congrArg some hk)
    have hitem (j : Nat) (q : RelayItem) (hq : relayAt (holdSlot slot .relay (withRelay e slot i s)) j = some q) :
        (j = i ∧ q.key = e.key) ∨ relayAt s j = some q := by
      have hq' := relays_of_relayAt hq
      simp only [holdSlot_relays, withRelay, List.getElem?_set] at hq'
      by_cases hij : i = j
      · subst hij
        rw [if_pos rfl, if_pos (List.getElem?_eq_some_iff.1 hfree).1] at hq'
        cases hq'
        exact .inl ⟨rfl, rfl⟩
      · rw [if_neg hij] at hq'
        exact .inr (relayAt_of_relays hq')
    intro j l r q hr hq hk
    rcases hitem j r hr with ⟨rfl, hrk⟩ | hr' <;> rcases hitem l q hq with ⟨rfl, hqk⟩ | hq'
    · rfl
    · exact absurd (hk.symm.trans hrk) (hother l q hq')
    · exact absurd (hk.trans hqk) (hother j r hr')
    · exact h j l r q hr' hq' hk

theorem relayKeysApart_decodeSuccess (d : Decode) (payload : List Byte) :
    (decodeSuccess d payload s).RelayKeysApart := by
  unfold decodeSuccess
  dsimp only
  split
  · exact relayKeysApart_congr h (endDecode_relays _ _)
  · refine relayKeysApart_congr (relayKeysApart_requestRelay ?_ _ d.slot) (endDecode_relays _ _)
    exact relayKeysApart_congr h (by split <;> simp)

end

/-! ## Every move -/

/-- The agreement of the keys reads the stores alone. -/
theorem State.KeysApart.of_stores {s t : State} (h : s.KeysApart) (ht : t.stores = s.stores) : t.KeysApart := by
  simp only [State.stores, Prod.mk.injEq] at ht
  obtain ⟨-, htable, hqueue, hdecoder, hhistory, -, -, hrelays, -, -⟩ := ht
  obtain ⟨hagrees, hapart⟩ := (keysApart_iff s).1 h
  refine (keysApart_iff t).2 ⟨?_, relayKeysApart_congr hapart hrelays⟩
  rwa [htable, hqueue, hdecoder, hhistory]

/-- Every move of the stores keeps each key in one place. -/
theorem keysApart_of_move (s t : State) (h : s.KeysApart) (hm : StoreMove s t) : t.KeysApart := by
  obtain ⟨hagrees, hapart⟩ := (keysApart_iff s).1 h
  have htable {u : State} (hu : u.TableAgrees) (hrelays : u.relays = s.relays) : u.KeysApart :=
    (keysApart_iff u).2 ⟨hu, relayKeysApart_congr hapart hrelays⟩
  have hrelays {u : State} (hu : u.RelayKeysApart)
      (hrest : (u.table, u.decodeQueue, u.history, u.decoder) = (s.table, s.decodeQueue, s.history, s.decoder)) :
      u.KeysApart := by
    simp only [Prod.mk.injEq] at hrest
    obtain ⟨htable, hqueue, hhistory, hdecoder⟩ := hrest
    refine (keysApart_iff u).2 ⟨?_, hu⟩
    rwa [htable, hqueue, hhistory, hdecoder]
  have hneither {u : State} (hrest : (u.table, u.decodeQueue, u.history, u.decoder)
      = (s.table, s.decodeQueue, s.history, s.decoder)) (hu : u.relays = s.relays) : u.KeysApart :=
    hrelays (relayKeysApart_congr hapart hu) hrest
  cases hm with
  | same hst => exact h.of_stores hst
  | emptied hst =>
    obtain ⟨-, -, -, -, -, -, hreset, -⟩ := resetMeetsTheInvariants
    exact hreset.of_stores hst
  | assembler _ => exact hneither rfl rfl
  | opened r hhistory hfree =>
    refine htable (tableAgrees_openEntry hagrees r ⟨hhistory, fun i x hx => ?_⟩) (openEntry_relays _ _)
    obtain ⟨e, he, hk, -⟩ := tableView_eq_some.1 hx
    exact (findKey_eq_none s r.header.key).1 hfree i e he hk
  | matched i r => exact htable (tableAgrees_matchCopy hagrees i r) (matchCopy_relays _ _ _)
  | expired he hw => exact htable (tableAgrees_expireEntry hagrees he hw) (expireEntry_relays _ _)
  | marked he => exact htable (tableAgrees_putEntry_same hagrees he rfl rfl) rfl
  | taken => exact htable (tableAgrees_decoderTake hagrees) (decoderTake_relays _)
  | recovered hd payload =>
    exact (keysApart_iff _).2 ⟨tableAgrees_decodeSuccess hagrees hd payload, relayKeysApart_decodeSuccess hapart _ _⟩
  | failed hd => exact htable (tableAgrees_decodeFailure hagrees hd) (decodeFailure_relays _ _)
  | relays hrs => exact hrelays (relayKeysApart_inPlace hapart hrs) rfl
  | relayGone _ => exact hrelays (relayKeysApart_dropRelay hapart _ _) rfl
  | origins _ _ => exact hneither rfl rfl
  | filed _ _ => exact hneither rfl rfl
  | reportCollected _ => exact hneither (by simp) (removeReport_relays _)
  | messageCollected => exact hneither (by simp) (removeMessage_relays _)
  | submitted p _ => exact hneither rfl rfl

/-- Settles O58: every step is a chain of moves of the stores, and each of them keeps each key in one place. -/
theorem stepKeepsKeysApart : Obligations.StepKeepsKeysApart := fun _ _ h ht =>
  step_keeps_of_moves keysApart_of_move h ht

end Sys2Proof.Machine
end

section
/-! PROOFS. The sizes of the stores and the bounds of the queues (O55). -/

namespace Sys2Proof.Machine

/-! ## What each operation leaves of the sizes -/

section
variable (s : State)

@[simp] theorem gate_table_length (i : Nat) : (gate i s).table.length = s.table.length := by
  unfold gate
  split
  · split
    · exact List.length_set
    · rfl
  · rfl

@[simp] theorem evict_table_length : (evict s).table.length = s.table.length := by
  unfold evict
  split
  · exact List.length_set
  · rfl

@[simp] theorem openEntry_table_length (r : CopyRecord) : (openEntry r s).table.length = s.table.length := by
  unfold openEntry
  dsimp only
  split <;> simp

@[simp] theorem matchCopy_table_length (i : Nat) (r : CopyRecord) :
    (matchCopy i r s).table.length = s.table.length := by
  unfold matchCopy
  split
  · rfl
  · dsimp only
    split <;> simp

@[simp] theorem settleFailure_table_length (i : Nat) : (settleFailure i s).table.length = s.table.length := by
  unfold settleFailure
  dsimp only
  split
  · rfl
  · split
    · exact List.length_set
    · split <;> exact List.length_set

@[simp] theorem decoderTake_table_length : (decoderTake s).table.length = s.table.length := by
  unfold decoderTake
  split
  · split
    · rfl
    · exact List.length_set
  · rfl

@[simp] theorem decodeSuccess_table_length (d : Decode) (payload : List Byte) :
    (decodeSuccess d payload s).table.length = s.table.length := by
  unfold decodeSuccess
  dsimp only
  split <;> simp

@[simp] theorem releaseSlot_slots_length (i : Nat) (h : Holder) : (releaseSlot i h s).slots.length = s.slots.length :=
  List.length_modify ..

@[simp] theorem holdSlot_slots_length (i : Nat) (h : Holder) : (holdSlot i h s).slots.length = s.slots.length :=
  List.length_modify ..

@[simp] theorem writeSlot_slots_length (i : Nat) (payload : List Byte) :
    (writeSlot i payload s).slots.length = s.slots.length := List.length_modify ..

@[simp] theorem endDecode_slots_length (i : Nat) : (endDecode i s).slots.length = s.slots.length :=
  List.length_modify ..

@[simp] theorem decoderTake_slots_length : (decoderTake s).slots.length = s.slots.length := by
  unfold decoderTake
  split
  · split
    · rfl
    · exact List.length_modify ..
  · rfl

/-- A request for a relay item leaves the schedule's places and the slots (R96, R109). -/
theorem requestRelay_lengths (e : Entry) (slot : Nat) :
    (requestRelay e slot s).relays.length = s.relays.length ∧ (requestRelay e slot s).slots.length = s.slots.length := by
  rcases requestRelay_cases e slot s with ⟨-, heq⟩ | ⟨-, -, heq⟩ | ⟨-, i, -, -, heq⟩
  · rw [heq]
    exact ⟨rfl, rfl⟩
  · rw [heq]
    exact ⟨rfl, rfl⟩
  · rw [heq]
    exact ⟨List.length_set, List.length_modify ..⟩

/-- A message offered to the Inbox joins it below 12 (R103). -/
theorem offerInbox_bounds (m : Message) (h : s.inbox.length ≤ 12) :
    (offerInbox m s).inbox.length ≤ 12 ∧ (offerInbox m s).slots.length = s.slots.length := by
  unfold offerInbox
  split
  · next hroom =>
    have hroom' : s.inbox.length < 12 := hroom
    refine ⟨?_, List.length_modify ..⟩
    show (s.inbox ++ [m]).length ≤ 12
    rw [List.length_append]
    exact hroom'
  · exact ⟨h, rfl⟩

/-- Delivery (R92). -/
theorem deliver_bounds (e : Entry) (u slot : Nat) (h : s.inbox.length ≤ 12) :
    (deliver e u slot s).inbox.length ≤ 12 ∧ (deliver e u slot s).slots.length = s.slots.length
      ∧ (deliver e u slot s).relays.length = s.relays.length := by
  unfold deliver
  obtain ⟨hrelays, hslots⟩ := requestRelay_lengths
    (if forThisStation s.cfg e.identity then offerInbox (inboxMessage e u slot) s else s) e slot
  rw [requestRelay_inbox, hrelays, hslots]
  split
  · obtain ⟨hinbox, hslots'⟩ := offerInbox_bounds s (inboxMessage e u slot) h
    exact ⟨hinbox, hslots', by rw [offerInbox_relays]⟩
  · exact ⟨h, rfl, rfl⟩

theorem insertKey_length_le {keys : List Key} (k : Key) (h : keys.length ≤ 32) : (insertKey keys k).length ≤ 32 := by
  rw [insertKey, List.length_append]
  split
  · next hroom => exact hroom
  · rw [List.length_tail, List.length_singleton]
    omega

end

/-! ## Sizes and bounds -/

/-- The sizes of the stores and the bounds of the queues. -/
def State.Bounds (s : State) : Prop := s.ShapesHold ∧ s.WithinCapacity

/-- What `State.Bounds` reads. -/
def State.extent (s : State) : Nat × Nat × Nat × Assembler × Nat × Nat × List OriginItem × List Report :=
  (s.table.length, s.relays.length, s.slots.length, s.assembler, s.inbox.length, s.history.length, s.outbox, s.reports)

theorem State.Bounds.of_extent {s t : State} (h : s.Bounds) (ht : t.extent = s.extent) : t.Bounds := by
  simp only [State.extent, Prod.mk.injEq] at ht
  obtain ⟨htable, hrelays, hslots, hassembler, hinbox, hhistory, houtbox, hreports⟩ := ht
  obtain ⟨hshape, hcap⟩ := h
  refine ⟨⟨?_, ?_, ?_, ?_, ?_⟩, ?_, ?_, ?_, ?_, ?_⟩
  · rw [htable]; exact hshape.entries
  · rw [hrelays]; exact hshape.relays
  · rw [hslots]; exact hshape.slots
  · rw [hassembler]; exact hshape.headerSums
  · rw [hassembler]; exact hshape.body
  · rw [hinbox]; exact hcap.inbox
  · rw [houtbox]; exact hcap.outbox
  · rw [hreports]; exact hcap.reports
  · rw [hhistory]; exact hcap.history
  · rw [houtbox, hreports]; exact hcap.pending

theorem State.Bounds.of_stores {s t : State} (h : s.Bounds) (ht : t.stores = s.stores) : t.Bounds := by
  simp only [State.stores, Prod.mk.injEq] at ht
  obtain ⟨hassembler, htable, -, -, hhistory, hslots, hinbox, hrelays, houtbox, hreports⟩ := ht
  exact h.of_extent (by simp only [State.extent, hassembler, htable, hhistory, hslots, hinbox, hrelays, houtbox, hreports])

section
variable {s : State} (h : s.Bounds)
include h

/-- Below 8 reports no item waits for its report (R155). -/
theorem not_pending_of_room (hroom : s.reports.length < 8) {o : OriginItem} (ho : o ∈ s.outbox) :
    o.state ≠ .reportPending := fun hst => by
  have := h.2.pending o ho hst
  omega

theorem bounds_recovered (d : Decode) (payload : List Byte) : (decodeSuccess d payload s).Bounds := by
  obtain ⟨hshape, hcap⟩ := h
  unfold decodeSuccess
  dsimp only
  split
  · exact State.Bounds.of_extent ⟨hshape, hcap⟩ (by simp [State.extent])
  · next e _ =>
    obtain ⟨hinbox, hslots, hrelays⟩ := deliver_bounds
      { writeSlot d.slot payload s with table := s.table.set d.entry none, history := insertKey s.history e.key }
      e d.unresolved d.slot hcap.inbox
    refine ⟨⟨?_, ?_, ?_, ?_, ?_⟩, ?_, ?_, ?_, ?_, ?_⟩
    · simpa using hshape.entries
    · rw [endDecode_relays]; exact hrelays.trans hshape.relays
    · rw [endDecode_slots_length]; exact hslots.trans ((writeSlot_slots_length ..).trans hshape.slots)
    · simpa using hshape.headerSums
    · simpa using hshape.body
    · rw [endDecode_inbox]; exact hinbox
    · simpa using hcap.outbox
    · simpa using hcap.reports
    · rw [endDecode_history, deliver_history]; exact insertKey_length_le _ hcap.history
    · simpa using hcap.pending

theorem bounds_assembler {a : Assembler} (ha : s.assembler.Shaped → a.Shaped) : (setAssembler a s).Bounds := by
  obtain ⟨hshape, hcap⟩ := h
  obtain ⟨hsums, hbody⟩ := ha ⟨hshape.headerSums, hshape.body⟩
  exact ⟨⟨hshape.entries, hshape.relays, hshape.slots, hsums, hbody⟩, hcap.inbox, hcap.outbox, hcap.reports,
    hcap.history, hcap.pending⟩

theorem bounds_origins {os : List OriginItem} (hslot : os.map OriginItem.slot = s.outbox.map OriginItem.slot)
    (hpending : ∀ o ∈ os, o.state = .reportPending →
      8 ≤ s.reports.length ∨ ∃ p ∈ s.outbox, p.state = .reportPending) : ({ s with outbox := os } : State).Bounds := by
  obtain ⟨hshape, hcap⟩ := h
  have hlength : os.length = s.outbox.length := by simpa using congrArg List.length hslot
  refine ⟨⟨hshape.entries, hshape.relays, hshape.slots, hshape.headerSums, hshape.body⟩, hcap.inbox, ?_, hcap.reports,
    hcap.history, fun o ho hst => ?_⟩
  · exact hlength.trans_le hcap.outbox
  · rcases hpending o ho hst with hfull | ⟨p, hp, hpst⟩
    · exact Nat.le_antisymm hcap.reports hfull
    · exact hcap.pending p hp hpst

/-- A report filed where the Report Queue has room, by an Outbox in which an item may be waiting for that room
(R155). -/
theorem bounds_fileReport (i : Nat) (o : OriginItem) {reports : List Report}
    (hroom : reports.length < 8) (hwait : ∀ p ∈ s.outbox, p.state = .reportPending → reports.length = 7) :
    (fileReport i o { s with reports := reports }).Bounds := by
  obtain ⟨hshape, hcap⟩ := h
  have hlength : (reports ++ [o.report]).length = reports.length + 1 := by simp
  refine ⟨⟨hshape.entries, hshape.relays, (List.length_modify ..).trans hshape.slots, hshape.headerSums, hshape.body⟩,
    hcap.inbox, ?_, ?_, hcap.history, fun p hp hst => ?_⟩
  · exact (List.eraseIdx_sublist ..).length_le.trans hcap.outbox
  · show (reports ++ [o.report]).length ≤ 8
    omega
  · show (reports ++ [o.report]).length = 8
    rw [hlength, hwait p (List.mem_of_mem_eraseIdx hp) hst]

/-- The head of the Report Queue collected: a full queue is filled again while an item waits (R155, R156). -/
theorem bounds_removeReport (hne : s.reports ≠ []) : (removeReport s).Bounds := by
  obtain ⟨hshape, hcap⟩ := h
  have hpos := List.length_pos_iff.2 hne
  have htail : s.reports.tail.length + 1 = s.reports.length := by rw [List.length_tail]; omega
  have hmax := hcap.reports
  have hplain (hwait : ∀ o ∈ s.outbox, o.state ≠ .reportPending) : ({ s with reports := s.reports.tail } : State).Bounds :=
    ⟨⟨hshape.entries, hshape.relays, hshape.slots, hshape.headerSums, hshape.body⟩, hcap.inbox, hcap.outbox,
      by show s.reports.tail.length ≤ 8; omega, hcap.history, fun o ho hst => absurd hst (hwait o ho)⟩
  unfold removeReport
  dsimp only
  split
  · next hseven =>
    have hseven' : s.reports.tail.length + 1 = 8 := hseven
    cases hfirst : firstPending s.outbox with
    | none =>
      refine hplain fun o ho hst => ?_
      have := List.findIdx?_eq_none_iff.1 hfirst o ho
      simp [hst] at this
    | some i =>
      obtain ⟨hlt, -⟩ := List.findIdx?_eq_some_iff_getElem.1 hfirst
      simp only [List.getElem?_eq_getElem hlt]
      exact bounds_fileReport ⟨hshape, hcap⟩ i _ (by omega) fun _ _ _ => by omega
  · next hnot =>
    have hnot' : ¬ s.reports.tail.length + 1 = 8 := hnot
    exact hplain fun o ho hst => hnot' (htail.trans (hcap.pending o ho hst))

/-- The head of the Inbox collected (R104). -/
theorem bounds_removeMessage : (removeMessage s).Bounds := by
  obtain ⟨hshape, hcap⟩ := h
  unfold removeMessage
  split
  · exact ⟨hshape, hcap⟩
  · next m rest hinbox =>
    have hlength := hcap.inbox
    rw [hinbox, List.length_cons] at hlength
    exact ⟨⟨hshape.entries, hshape.relays, (List.length_modify ..).trans hshape.slots, hshape.headerSums, hshape.body⟩,
      Nat.le_of_succ_le hlength, hcap.outbox, hcap.reports, hcap.history, hcap.pending⟩

/-- A SUBMIT accepted: the item joins an Outbox with room, READY or HELD (R147). -/
theorem bounds_acceptSubmit (p : SubmitParams) (hroom : s.outbox.length < 4) : (acceptSubmit p s).Bounds := by
  obtain ⟨hshape, hcap⟩ := h
  refine ⟨⟨hshape.entries, hshape.relays, ?_, hshape.headerSums, hshape.body⟩, hcap.inbox, ?_, hcap.reports,
    hcap.history, fun o ho hst => ?_⟩
  · exact (holdSlot_slots_length ..).trans ((writeSlot_slots_length ..).trans hshape.slots)
  · show (s.outbox ++ [newOrigin p (lowestFree s.slots) s]).length ≤ 4
    rw [List.length_append]
    exact hroom
  · rcases List.mem_append.1 ho with ho | ho
    · exact hcap.pending o ho hst
    · rw [List.mem_singleton.1 ho, newOrigin] at hst
      dsimp only at hst
      split at hst <;> cases hst

end

/-- Every move of the stores keeps the sizes and the bounds. -/
theorem bounds_of_move (s t : State) (h : s.Bounds) (hm : StoreMove s t) : t.Bounds := by
  cases hm with
  | same hst => exact h.of_stores hst
  | emptied hst =>
    obtain ⟨hshape, hcap, -⟩ := resetMeetsTheInvariants
    exact State.Bounds.of_stores ⟨hshape, hcap⟩ hst
  | assembler ha => exact bounds_assembler h ha
  | opened r _ _ => exact h.of_extent (by simp [State.extent])
  | matched i r => exact h.of_extent (by simp [State.extent])
  | expired _ _ => exact h.of_extent (by simp [State.extent, expireEntry])
  | marked _ => exact h.of_extent (by simp [State.extent])
  | taken => exact h.of_extent (by simp [State.extent])
  | recovered _ payload => exact bounds_recovered h _ payload
  | failed _ => exact h.of_extent (by simp [State.extent, decodeFailure])
  | relays hrs => exact h.of_extent (by simpa [State.extent] using congrArg List.length hrs)
  | relayGone _ => exact h.of_extent (by simp [State.extent, dropRelay])
  | origins hslot hpending => exact bounds_origins h hslot hpending
  | filed _ hroom =>
    exact bounds_fileReport h _ _ hroom fun p hp hst => absurd hst (not_pending_of_room h hroom hp)
  | reportCollected hne => exact bounds_removeReport h hne
  | messageCollected => exact bounds_removeMessage h
  | submitted p hroom => exact bounds_acceptSubmit h p hroom

end Sys2Proof.Machine
end

section
/-! PROOFS. The holders of the Body Store: each holder's slots as a list, against the flags of the slots (O55). -/

namespace Sys2Proof.Machine

/-! ## Holds and claims -/

/-- Whether a party holds a slot, by the slot's flags (R96). -/
def Slot.heldBy (sl : Slot) : Holder → Bool
  | .inbox => sl.byInbox
  | .relay => sl.byRelay
  | .origin => sl.byOrigin
  | .decoder => sl.byDecoder

theorem heldBy_setHold (sl : Slot) (h g : Holder) : (sl.setHold h true).heldBy g = (sl.heldBy g || g == h) := by
  cases h <;> cases g <;> simp [Slot.heldBy, Slot.setHold]

theorem heldBy_slotWithout (sl : Slot) (h g : Holder) : (slotWithout h sl).heldBy g = (sl.heldBy g && g != h) := by
  unfold slotWithout
  dsimp only
  split
  · cases g <;> simp [Slot.heldBy, bne_comm]
  · next hnone =>
    simp only [Bool.or_eq_true, not_or, Bool.not_eq_true] at hnone
    obtain ⟨⟨⟨hi, hr⟩, ho⟩, hd⟩ := hnone
    cases g with
    | inbox => rw [bne_comm]; exact hi.symm
    | relay => rw [bne_comm]; exact hr.symm
    | origin => rw [bne_comm]; exact ho.symm
    | decoder => rw [bne_comm]; exact hd.symm

theorem isFree_iff (sl : Slot) : sl.isFree = true ↔ ∀ h, sl.heldBy h = false := by
  constructor
  · intro hfree h
    simp only [Slot.isFree, Bool.and_eq_true, Bool.not_eq_true'] at hfree
    obtain ⟨⟨⟨hi, hr⟩, ho⟩, hd⟩ := hfree
    cases h with
    | inbox => exact hi
    | relay => exact hr
    | origin => exact ho
    | decoder => exact hd
  · intro h
    have hi := h .inbox
    have hr := h .relay
    have ho := h .origin
    have hd := h .decoder
    simp only [Slot.heldBy] at hi hr ho hd
    simp [Slot.isFree, hi, hr, ho, hd]

/-- The slots that a party's messages, items or decode stand in. -/
def claims (s : State) : Holder → List Nat
  | .inbox => s.inbox.map Message.slot
  | .relay => s.relays.filterMap (Option.map RelayItem.slot)
  | .origin => s.outbox.map OriginItem.slot
  | .decoder => (s.decoder.map Decode.slot).toList

/-- The flags of the slots name the parties whose claims they are, and no party claims a slot twice. -/
structure Accounted (slots : List Slot) (c : Holder → List Nat) : Prop where
  holds : ∀ h k, (∃ sl, slots[k]? = some sl ∧ sl.heldBy h = true) ↔ k ∈ c h
  apart : ∀ h, (c h).Nodup

/-- What a party claims, no other party claims. -/
def Alone (h : Holder) (c : Holder → List Nat) : Prop := ∀ g, g ≠ h → ∀ k ∈ c h, k ∉ c g

/-- `State.HoldersAgree`, in claims. -/
structure HoldersAccounted (slots : List Slot) (c : Holder → List Nat) : Prop where
  accounted : Accounted slots c
  origin : Alone .origin c
  decoder : Alone .decoder c

theorem mem_relayClaims {s : State} {k : Nat} :
    k ∈ claims s .relay ↔ ∃ i r, relayAt s i = some r ∧ r.slot = k := by
  simp only [claims, List.mem_filterMap, Option.map_eq_some_iff]
  constructor
  · rintro ⟨x, hx, r, rfl, hk⟩
    obtain ⟨i, hi⟩ := List.getElem?_of_mem hx
    exact ⟨i, r, relayAt_of_relays hi, hk⟩
  · rintro ⟨i, r, hr, hk⟩
    exact ⟨some r, List.mem_of_getElem? (relays_of_relayAt hr), r, rfl, hk⟩

theorem mem_decoderClaims {s : State} {k : Nat} :
    k ∈ claims s .decoder ↔ ∃ d, s.decoder = some d ∧ d.slot = k := by
  rw [claims, Option.mem_toList]
  exact Option.map_eq_some_iff

theorem decoderClaims_nodup (s : State) : (claims s .decoder).Nodup := by
  unfold claims
  cases s.decoder with
  | none => exact List.nodup_nil
  | some d => exact List.nodup_singleton d.slot

theorem relayClaims_nodup {s : State} :
    (claims s .relay).Nodup ↔ ∀ i j r q, relayAt s i = some r → relayAt s j = some q → r.slot = q.slot → i = j := by
  rw [claims, List.Nodup, List.pairwise_filterMap, List.pairwise_iff_getElem]
  constructor
  · intro h i j r q hr hq hslot
    obtain ⟨hi, hri⟩ := List.getElem?_eq_some_iff.1 (relays_of_relayAt hr)
    obtain ⟨hj, hqj⟩ := List.getElem?_eq_some_iff.1 (relays_of_relayAt hq)
    rcases Nat.lt_trichotomy i j with hij | hij | hij
    · exact absurd hslot (h i j hi hj hij r.slot (by rw [hri]; rfl) q.slot (by rw [hqj]; rfl))
    · exact hij
    · exact absurd hslot.symm (h j i hj hi hij q.slot (by rw [hqj]; rfl) r.slot (by rw [hri]; rfl))
  · intro h i j hi hj hij k hk l hl hkl
    obtain ⟨r, hr, rfl⟩ := Option.map_eq_some_iff.1 hk
    obtain ⟨q, hq, rfl⟩ := Option.map_eq_some_iff.1 hl
    have hr' : relayAt s i = some r := relayAt_of_relays (by rw [List.getElem?_eq_getElem hi, hr])
    have hq' : relayAt s j = some q := relayAt_of_relays (by rw [List.getElem?_eq_getElem hj, hq])
    exact hij.ne (h i j r q hr' hq' hkl)

/-- A party's claims are its own where no slot that it holds has another holder. -/
theorem alone_iff {slots : List Slot} {c : Holder → List Nat} (h : Accounted slots c) (a : Holder) :
    Alone a c ↔ ∀ sl ∈ slots, sl.heldBy a = true → ∀ g, g ≠ a → sl.heldBy g = false := by
  constructor
  · intro halone sl hsl hheld g hg
    obtain ⟨k, hk⟩ := List.getElem?_of_mem hsl
    have hnot := halone g hg k ((h.holds a k).1 ⟨sl, hk, hheld⟩)
    exact Bool.eq_false_iff.2 fun hheld' => hnot ((h.holds g k).1 ⟨sl, hk, hheld'⟩)
  · intro halone g hg k hk hk'
    obtain ⟨sl, hsl, hheld⟩ := (h.holds a k).2 hk
    obtain ⟨sl', hsl', hheld'⟩ := (h.holds g k).2 hk'
    obtain rfl := Option.some.inj (hsl.symm.trans hsl')
    rw [halone sl (List.mem_of_getElem? hsl) hheld g hg] at hheld'
    cases hheld'

theorem holdersAgree_iff (s : State) : s.HoldersAgree ↔ HoldersAccounted s.slots (claims s) := by
  constructor
  · intro h
    have haccounted : Accounted s.slots (claims s) := by
      refine ⟨fun a k => ?_, fun a => ?_⟩
      · cases a with
        | inbox => exact (h.inbox k).trans List.mem_map.symm
        | relay => exact (h.relay k).trans mem_relayClaims.symm
        | origin => exact (h.origin k).trans List.mem_map.symm
        | decoder => exact (h.decoder k).trans mem_decoderClaims.symm
      · cases a with
        | inbox => exact h.inboxApart
        | relay => exact relayClaims_nodup.2 h.relaysApart
        | origin => exact h.originsApart
        | decoder => exact decoderClaims_nodup s
    refine ⟨haccounted, (alone_iff haccounted _).2 fun sl hsl hheld g hg => ?_,
      (alone_iff haccounted _).2 fun sl hsl hheld g hg => ?_⟩
    · obtain ⟨hi, hr, hd⟩ := h.submitted sl hsl hheld
      cases g with
      | inbox => exact hi
      | relay => exact hr
      | origin => exact absurd rfl hg
      | decoder => exact hd
    · obtain ⟨hi, hr, ho⟩ := h.reserved sl hsl hheld
      cases g with
      | inbox => exact hi
      | relay => exact hr
      | origin => exact ho
      | decoder => exact absurd rfl hg
  · rintro ⟨h, horigin, hdecoder⟩
    have hsubmitted := (alone_iff h _).1 horigin
    have hreserved := (alone_iff h _).1 hdecoder
    refine ⟨fun k => ?_, fun k => ?_, fun k => ?_, fun k => ?_, h.apart .inbox, relayClaims_nodup.1 (h.apart .relay),
      h.apart .origin, fun sl hsl hheld => ?_, fun sl hsl hheld => ?_⟩
    · exact (h.holds .inbox k).trans List.mem_map
    · exact (h.holds .relay k).trans mem_relayClaims
    · exact (h.holds .origin k).trans List.mem_map
    · exact (h.holds .decoder k).trans mem_decoderClaims
    · have hno := hreserved sl hsl hheld
      exact ⟨hno .inbox (by decide), hno .relay (by decide), hno .origin (by decide)⟩
    · have hno := hsubmitted sl hsl hheld
      exact ⟨hno .inbox (by decide), hno .relay (by decide), hno .decoder (by decide)⟩

/-! ## Holds taken and let go -/

section
variable {slots : List Slot} {c : Holder → List Nat} {g : Holder} {k : Nat} {l : List Nat}

theorem Accounted.lt_length (h : Accounted slots c) (hk : k ∈ c g) : k < slots.length := by
  obtain ⟨sl, hsl, -⟩ := (h.holds g k).2 hk
  exact (List.getElem?_eq_some_iff.1 hsl).1

/-- One slot changes, and with it the claims on it. -/
theorem Accounted.modify (h : Accounted slots c) {c' : Holder → List Nat} {f : Slot → Slot} (hk : k < slots.length)
    (hslot : ∀ sl g, slots[k]? = some sl → ((f sl).heldBy g = true ↔ k ∈ c' g))
    (hother : ∀ g j, j ≠ k → (j ∈ c' g ↔ j ∈ c g)) (hapart : ∀ g, (c' g).Nodup) : Accounted (slots.modify k f) c' := by
  refine ⟨fun g j => ?_, hapart⟩
  rw [List.getElem?_modify]
  by_cases hj : k = j
  · subst hj
    rw [← hslot _ g (List.getElem?_eq_getElem hk)]
    simp [hk]
  · rw [hother g j (Ne.symm hj), ← h.holds g j]
    simp [hj]

/-- A payload written is no hold (R98). -/
theorem Accounted.write (h : Accounted slots c) (k : Nat) (payload : List Byte) :
    Accounted (slots.modify k fun sl => { sl with payload := payload }) c := by
  by_cases hk : k < slots.length
  · refine h.modify hk (fun sl g hsl => ?_) (fun _ _ _ => Iff.rfl) h.apart
    rw [← h.holds g k]
    constructor
    · exact fun hheld => ⟨sl, hsl, by cases g <;> exact hheld⟩
    · rintro ⟨sl', hsl', hheld⟩
      obtain rfl := Option.some.inj (hsl.symm.trans hsl')
      cases g <;> exact hheld
  · rw [List.modify_eq_set_getElem?, List.getElem?_eq_none (Nat.le_of_not_lt hk)]
    exact h

/-- A party takes hold of a slot (R98). -/
theorem Accounted.hold (h : Accounted slots c) (hk : k < slots.length) (hnew : k ∉ c g) (hl : l.Perm (k :: c g)) :
    Accounted (slots.modify k fun sl => sl.setHold g true) (Function.update c g l) := by
  refine h.modify hk (fun sl a hsl => ?_) (fun a j hj => ?_) fun a => ?_
  · have hheld : sl.heldBy a = true ↔ k ∈ c a := by
      rw [← h.holds a k, hsl]
      simp
    by_cases ha : a = g
    · subst ha
      simp [heldBy_setHold, hl.mem_iff]
    · simp [heldBy_setHold, ha, hheld]
  · by_cases ha : a = g
    · subst ha
      simp [hl.mem_iff, hj]
    · simp [ha]
  · by_cases ha : a = g
    · subst ha
      rw [Function.update_self, hl.nodup_iff]
      exact List.nodup_cons.2 ⟨hnew, h.apart a⟩
    · rw [Function.update_of_ne ha]
      exact h.apart a

/-- A party lets go of a slot (R99). -/
theorem Accounted.release (h : Accounted slots c) (hl : (c g).Perm (k :: l)) :
    Accounted (slots.modify k (slotWithout g)) (Function.update c g l) := by
  have hnodup := hl.nodup_iff.1 (h.apart g)
  obtain ⟨hgone, hrest⟩ := List.nodup_cons.1 hnodup
  refine h.modify (h.lt_length (hl.mem_iff.2 List.mem_cons_self)) (fun sl a hsl => ?_) (fun a j hj => ?_) fun a => ?_
  · have hheld : sl.heldBy a = true ↔ k ∈ c a := by
      rw [← h.holds a k, hsl]
      simp
    by_cases ha : a = g
    · subst ha
      simp [heldBy_slotWithout, hgone]
    · simp [heldBy_slotWithout, ha, hheld]
  · by_cases ha : a = g
    · subst ha
      simp [hl.mem_iff, hj]
    · simp [ha]
  · by_cases ha : a = g
    · subst ha
      rwa [Function.update_self]
    · rw [Function.update_of_ne ha]
      exact h.apart a

/-- Nobody has claims on a free slot (R96). -/
theorem Accounted.not_mem_of_free (h : Accounted slots c) {sl : Slot} (hsl : slots[k]? = some sl)
    (hfree : sl.isFree = true) (a : Holder) : k ∉ c a := fun hk => by
  obtain ⟨sl', hsl', hheld⟩ := (h.holds a k).2 hk
  obtain rfl := Option.some.inj (hsl.symm.trans hsl')
  rw [(isFree_iff sl).1 hfree a] at hheld
  cases hheld

theorem Alone.shrink {a : Holder} (h : Alone a c) (hl : l ⊆ c g) : Alone a (Function.update c g l) := by
  have hsub (b : Holder) : Function.update c g l b ⊆ c b := by
    by_cases hb : b = g
    · subst hb
      rwa [Function.update_self]
    · rw [Function.update_of_ne hb]
      exact List.Subset.refl _
  exact fun b hb k hk hk' => h b hb k (hsub a hk) (hsub b hk')

/-- A claim more, on a slot that comes to be claimed by no other party or by one that may share it. -/
theorem Alone.grow {a : Holder} (h : Alone a c) (hl : l.Perm (k :: c g)) (hown : g = a → ∀ b, b ≠ a → k ∉ c b)
    (hshared : g ≠ a → k ∉ c a) : Alone a (Function.update c g l) := by
  intro b hb j hj hj'
  by_cases ha : a = g
  · subst ha
    rw [Function.update_self, hl.mem_iff, List.mem_cons] at hj
    rw [Function.update_of_ne hb] at hj'
    rcases hj with rfl | hj
    · exact hown rfl b hb hj'
    · exact h b hb j hj hj'
  · rw [Function.update_of_ne ha] at hj
    by_cases hbg : b = g
    · subst hbg
      rw [Function.update_self, hl.mem_iff, List.mem_cons] at hj'
      rcases hj' with rfl | hj'
      · exact hshared (Ne.symm ha) hj
      · exact h b hb j hj hj'
    · rw [Function.update_of_ne hbg] at hj'
      exact h b hb j hj hj'

/-- A hold let go leaves every party's claims apart. -/
theorem HoldersAccounted.release (h : HoldersAccounted slots c) (hl : (c g).Perm (k :: l)) :
    HoldersAccounted (slots.modify k (slotWithout g)) (Function.update c g l) :=
  have hsub : l ⊆ c g := fun _ hj => hl.mem_iff.2 (List.mem_cons_of_mem _ hj)
  ⟨h.accounted.release hl, h.origin.shrink hsub, h.decoder.shrink hsub⟩

theorem HoldersAccounted.write (h : HoldersAccounted slots c) (k : Nat) (payload : List Byte) :
    HoldersAccounted (slots.modify k fun sl => { sl with payload := payload }) c :=
  ⟨h.accounted.write k payload, h.origin, h.decoder⟩

/-- A free slot taken (R97). -/
theorem HoldersAccounted.take (h : HoldersAccounted slots c) {sl : Slot} (hsl : slots[k]? = some sl)
    (hfree : sl.isFree = true) (hl : l.Perm (k :: c g)) :
    HoldersAccounted (slots.modify k fun sl => sl.setHold g true) (Function.update c g l) :=
  have hnone := h.accounted.not_mem_of_free hsl hfree
  ⟨h.accounted.hold (List.getElem?_eq_some_iff.1 hsl).1 (hnone g) hl,
    h.origin.grow hl (fun _ b _ => hnone b) fun _ => hnone _,
    h.decoder.grow hl (fun _ b _ => hnone b) fun _ => hnone _⟩

end

end Sys2Proof.Machine
end

section
/-! PROOFS. Every move keeps the holders of the Body Store in agreement with their claims, and a slot is free whenever one
is asked for (O55). -/

namespace Sys2Proof.Machine

/-! ## A free slot (R97) -/

/-- The claims of all four parties. -/
def allClaims (s : State) : List Nat :=
  claims s .inbox ++ (claims s .relay ++ (claims s .origin ++ claims s .decoder))

theorem mem_allClaims {s : State} {a : Holder} {k : Nat} (h : k ∈ claims s a) : k ∈ allClaims s := by
  simp only [allClaims, List.mem_append]
  cases a with
  | inbox => exact .inl h
  | relay => exact .inr (.inl h)
  | origin => exact .inr (.inr (.inl h))
  | decoder => exact .inr (.inr (.inr h))

/-- The parties cannot hold all 32 slots: 12 Inbox messages, 15 relay items, 4 origin items and one decode make 32, and
one of these is wanting. -/
theorem exists_free {s : State} (hb : s.Bounds) (h : HoldersAccounted s.slots (claims s))
    (hroom : s.decoder = none ∨ s.outbox.length < 4) : ∃ sl ∈ s.slots, sl.isFree = true := by
  obtain ⟨hshape, hcap⟩ := hb
  by_contra hnone
  have hall : List.range 32 ⊆ allClaims s := by
    intro k hk
    rw [List.mem_range, ← hshape.slots] at hk
    have hheld : ∃ a, s.slots[k].heldBy a = true := by
      by_contra hfree
      refine hnone ⟨s.slots[k], List.getElem_mem hk, (isFree_iff _).2 fun a => ?_⟩
      exact Bool.eq_false_iff.2 fun ha => hfree ⟨a, ha⟩
    obtain ⟨a, ha⟩ := hheld
    exact mem_allClaims ((h.accounted.holds a k).1 ⟨_, List.getElem?_eq_getElem hk, ha⟩)
  have hlength : 32 ≤ (allClaims s).length := by
    simpa using (List.subperm_of_subset List.nodup_range hall).length_le
  have hinbox : (claims s .inbox).length ≤ 12 := by simpa [claims] using hcap.inbox
  have hrelay : (claims s .relay).length ≤ 15 := (List.length_filterMap_le _ _).trans_eq hshape.relays
  have horigin : (claims s .origin).length = s.outbox.length := List.length_map ..
  have hdecoder : (claims s .decoder).length ≤ 1 := by
    unfold claims
    cases s.decoder <;> simp
  have hsum : (allClaims s).length = (claims s .inbox).length + ((claims s .relay).length
      + ((claims s .origin).length + (claims s .decoder).length)) := by simp [allClaims]
  have hmax := hcap.outbox
  rcases hroom with hidle | hroom
  · have hzero : (claims s .decoder).length = 0 := by simp [claims, hidle]
    omega
  · omega

/-- The lowest free slot is free (R97). -/
theorem lowestFree_spec {slots : List Slot} (h : ∃ sl ∈ slots, sl.isFree = true) :
    ∃ sl, slots[lowestFree slots]? = some sl ∧ sl.isFree = true := by
  unfold lowestFree
  cases hi : slots.findIdx? Slot.isFree with
  | none =>
    obtain ⟨sl, hsl, hfree⟩ := h
    have := List.findIdx?_eq_none_iff.1 hi sl hsl
    simp [hfree] at this
  | some k =>
    obtain ⟨hk, hfree, -⟩ := List.findIdx?_eq_some_iff_getElem.1 hi
    exact ⟨slots[k], List.getElem?_eq_getElem hk, hfree⟩

/-! ## Claims that come and go -/

theorem claims_congr {s t : State} (hinbox : t.inbox = s.inbox) (hrelays : t.relays = s.relays)
    (houtbox : t.outbox = s.outbox) (hdecoder : t.decoder = s.decoder) : claims t = claims s := by
  funext a
  cases a <;> simp only [claims, hinbox, hrelays, houtbox, hdecoder]

/-- An item put at a vacant place of a schedule. -/
theorem filterMap_set_perm {α : Type} (f : α → Nat) (a : α) : ∀ (l : List (Option α)) (i : Nat), l[i]? = some none →
    ((l.set i (some a)).filterMap (Option.map f)).Perm (f a :: l.filterMap (Option.map f))
  | [], _, h => by cases h
  | x :: l, 0, h => by
    obtain rfl : x = none := Option.some.inj h
    simp
  | x :: l, i + 1, h => by
    have ih := filterMap_set_perm f a l i h
    cases x with
    | none => simpa using ih
    | some b =>
      have hswap : (f b :: f a :: l.filterMap (Option.map f)).Perm (f a :: f b :: l.filterMap (Option.map f)) :=
        List.Perm.swap ..
      simpa using (ih.cons (f b)).trans hswap

/-- A relay item's claim goes with it (R115). -/
theorem relayClaims_dropRelay {s : State} {i : Nat} {r : RelayItem} (h : relayAt s i = some r) :
    (claims s .relay).Perm (r.slot :: claims (dropRelay i r s) .relay) := by
  obtain ⟨hi, hr⟩ := List.getElem?_eq_some_iff.1 (relays_of_relayAt h)
  have hput := filterMap_set_perm RelayItem.slot r (s.relays.set i none) i (by simp [hi])
  rw [List.set_set, ← hr, List.set_getElem_self] at hput
  exact hput

theorem originClaims_removeOrigin {s : State} {i : Nat} {o : OriginItem} (h : s.outbox[i]? = some o) :
    (claims s .origin).Perm (o.slot :: claims (removeOrigin i o s) .origin) := by
  obtain ⟨hi, rfl⟩ := List.getElem?_eq_some_iff.1 h
  exact ((List.getElem_cons_eraseIdx_perm hi).map OriginItem.slot).symm

theorem HoldersAccounted.of_eq {slots : List Slot} {c : Holder → List Nat} (h : HoldersAccounted slots c) {t : State}
    (hslots : t.slots = slots) (hclaims : claims t = c) : HoldersAccounted t.slots (claims t) := by
  rwa [hslots, hclaims]

/-- What letting go of a slot does to the slots (R99). -/
theorem releaseSlot_slots_eq (k : Nat) (a : Holder) (s : State) :
    (releaseSlot k a s).slots = s.slots.modify k (slotWithout a) := by
  rw [releaseSlot_slots, settle_setHold_fun]

theorem decoderClaims_eq {s : State} {d : Decode} (hd : s.decoder = some d) : claims s .decoder = [d.slot] := by
  rw [claims, hd]
  rfl

section
variable {s : State} (h : HoldersAccounted s.slots (claims s))
include h

theorem accounted_dropRelay {i : Nat} {r : RelayItem} (hr : relayAt s i = some r) :
    HoldersAccounted (dropRelay i r s).slots (claims (dropRelay i r s)) := by
  refine (h.release (relayClaims_dropRelay hr)).of_eq (releaseSlot_slots_eq ..) ?_
  funext a
  cases a <;> rfl

theorem accounted_removeOrigin {i : Nat} {o : OriginItem} (ho : s.outbox[i]? = some o) :
    HoldersAccounted (removeOrigin i o s).slots (claims (removeOrigin i o s)) := by
  refine (h.release (originClaims_removeOrigin ho)).of_eq (releaseSlot_slots_eq ..) ?_
  funext a
  cases a <;> rfl

/-- A report filed: the reports hold no slot (R155). -/
theorem accounted_fileReport {i : Nat} {o : OriginItem} (ho : s.outbox[i]? = some o) :
    HoldersAccounted (fileReport i o s).slots (claims (fileReport i o s)) :=
  accounted_removeOrigin (s := { s with reports := s.reports ++ [o.report] }) h ho

theorem accounted_removeReport : HoldersAccounted (removeReport s).slots (claims (removeReport s)) := by
  unfold removeReport
  dsimp only
  split
  · split
    · exact h
    · split
      · exact h
      · next ho => exact accounted_fileReport (s := { s with reports := s.reports.tail }) h ho
  · exact h

/-- The head of the Inbox collected (R104). -/
theorem accounted_removeMessage : HoldersAccounted (removeMessage s).slots (claims (removeMessage s)) := by
  unfold removeMessage
  split
  · exact h
  · next m rest hinbox =>
    have hclaim : (claims s .inbox).Perm (m.slot :: rest.map Message.slot) := by rw [claims, hinbox]; exact .refl _
    refine (h.release hclaim).of_eq (releaseSlot_slots_eq ..) ?_
    funext a
    cases a <;> rfl

/-- The Decoder's reservation ended (R83, R84). -/
theorem accounted_endDecode {d : Decode} (hd : s.decoder = some d) :
    HoldersAccounted (endDecode d.slot s).slots (claims (endDecode d.slot s)) := by
  have hclaim : (claims s .decoder).Perm (d.slot :: []) := by rw [decoderClaims_eq hd]
  refine (h.release hclaim).of_eq (releaseSlot_slots_eq ..) ?_
  funext a
  cases a <;> rfl

/-- A SUBMIT takes a free slot for its item (R97, R147). -/
theorem accounted_acceptSubmit (p : SubmitParams) (hfree : ∃ sl ∈ s.slots, sl.isFree = true) :
    HoldersAccounted (acceptSubmit p s).slots (claims (acceptSubmit p s)) := by
  obtain ⟨sl, hsl, hslfree⟩ := lowestFree_spec hfree
  have hwritten : (s.slots.modify (lowestFree s.slots) fun sl => { sl with payload := p.payload })[lowestFree s.slots]?
      = some { sl with payload := p.payload } := by simp [hsl]
  have hperm : (claims s .origin ++ [lowestFree s.slots]).Perm (lowestFree s.slots :: claims s .origin) :=
    List.perm_append_singleton ..
  refine ((h.write (lowestFree s.slots) p.payload).take hwritten hslfree hperm).of_eq rfl ?_
  funext a
  cases a with
  | origin => exact List.map_append
  | _ => rfl

/-- The Decoder takes a free slot (R79, R97). -/
theorem accounted_decoderTake (hfree : s.decoder = none → ∃ sl ∈ s.slots, sl.isFree = true) :
    HoldersAccounted (decoderTake s).slots (claims (decoderTake s)) := by
  unfold decoderTake
  split
  · next hd _ =>
    split
    · exact h
    · obtain ⟨sl, hsl, hslfree⟩ := lowestFree_spec (hfree hd)
      have hperm : [lowestFree s.slots].Perm (lowestFree s.slots :: claims s .decoder) := by rw [claims, hd]; exact .refl _
      refine (h.take hsl hslfree hperm).of_eq rfl ?_
      funext a
      cases a <;> rfl
  · exact h

end

/-! ## A decode that succeeds (R67, R68) -/

/-- The holders while Delivery has the reserved slot `k`: the Inbox and the Relay Schedule may come to share it with the
Decoder (R83). -/
structure Delivering (k : Nat) (slots : List Slot) (c : Holder → List Nat) : Prop where
  accounted : Accounted slots c
  origin : Alone .origin c
  reserved : c .decoder = [k]

namespace Delivering

variable {k : Nat} {slots : List Slot} {c : Holder → List Nat} (h : Delivering k slots c)
include h

theorem mem_decoder : k ∈ c .decoder := by
  rw [h.reserved]
  exact List.mem_singleton_self k

/-- The Inbox or the Relay Schedule takes hold of the slot (R98). -/
theorem share {g : Holder} (ho : g ≠ .origin) (hd : g ≠ .decoder) {l : List Nat} (hnew : k ∉ c g)
    (hl : l.Perm (k :: c g)) :
    Delivering k (slots.modify k fun sl => sl.setHold g true) (Function.update c g l) where
  accounted := h.accounted.hold (h.accounted.lt_length h.mem_decoder) hnew hl
  origin := h.origin.grow hl (fun hg => absurd hg ho) fun _ hk => h.origin .decoder (by decide) k hk h.mem_decoder
  reserved := by rw [Function.update_of_ne (Ne.symm hd), h.reserved]

/-- The reservation ends (R83). -/
theorem finish : HoldersAccounted (slots.modify k (slotWithout .decoder)) (Function.update c .decoder []) where
  accounted := h.accounted.release (by rw [h.reserved])
  origin := h.origin.shrink (List.nil_subset _)
  decoder := fun _ _ _ hj => by
    rw [Function.update_self] at hj
    cases hj

theorem of_eq {t : State} (hslots : t.slots = slots) (hclaims : claims t = c) : Delivering k t.slots (claims t) := by
  rwa [hslots, hclaims]

end Delivering

/-- The recovered message offered to the Inbox (R103). -/
theorem delivering_offerInbox {s : State} (m : Message) (h : Delivering m.slot s.slots (claims s))
    (hnew : m.slot ∉ claims s .inbox) : Delivering m.slot (offerInbox m s).slots (claims (offerInbox m s)) := by
  unfold offerInbox
  split
  · have hperm : (claims s .inbox ++ [m.slot]).Perm (m.slot :: claims s .inbox) := List.perm_append_singleton ..
    refine (h.share (by decide) (by decide) hnew hperm).of_eq rfl ?_
    funext a
    cases a with
    | inbox => exact List.map_append
    | _ => rfl
  · exact h.of_eq rfl (claims_congr rfl rfl rfl rfl)

/-- The request for a relay item of the recovered message (R111, R112). -/
theorem delivering_requestRelay {s : State} (e : Entry) {k : Nat} (h : Delivering k s.slots (claims s))
    (hnew : k ∉ claims s .relay) : Delivering k (requestRelay e k s).slots (claims (requestRelay e k s)) := by
  rcases requestRelay_cases e k s with ⟨-, heq⟩ | ⟨-, -, heq⟩ | ⟨-, i, hfree, -, heq⟩
  · rwa [heq]
  · rw [heq]
    exact h.of_eq rfl (claims_congr rfl rfl rfl rfl)
  · rw [heq]
    have hperm : (claims (withRelay e k i s) .relay).Perm (k :: claims s .relay) :=
      filterMap_set_perm RelayItem.slot (newRelay e k _) s.relays i hfree
    refine (h.share (by decide) (by decide) hnew hperm).of_eq rfl ?_
    funext a
    cases a <;> rfl

/-- A decode that succeeds hands its slot to the Inbox and to the Relay Schedule, as they take it (R67, R68, R83). -/
theorem accounted_decodeSuccess {s : State} (h : HoldersAccounted s.slots (claims s)) {d : Decode}
    (hd : s.decoder = some d) (payload : List Byte) :
    HoldersAccounted (decodeSuccess d payload s).slots (claims (decodeSuccess d payload s)) := by
  have hmem : d.slot ∈ claims s .decoder := by
    rw [decoderClaims_eq hd]
    exact List.mem_singleton_self _
  have hwritten := h.write d.slot payload
  unfold decodeSuccess
  dsimp only
  split
  · exact accounted_endDecode (s := writeSlot d.slot payload s) hwritten hd
  · next e _ =>
    have hdelivering : Delivering d.slot (s.slots.modify d.slot fun sl => { sl with payload := payload }) (claims s) :=
      ⟨hwritten.accounted, hwritten.origin, decoderClaims_eq hd⟩
    have hoffered : ∀ u : State, Delivering d.slot u.slots (claims u) → claims u = claims s →
        Delivering d.slot (deliver e d.unresolved d.slot u).slots (claims (deliver e d.unresolved d.slot u)) := by
      intro u hu hclaims
      have hnew (a : Holder) (ha : a ≠ .decoder) : d.slot ∉ claims u a := by
        rw [hclaims]
        exact h.decoder a ha d.slot hmem
      unfold deliver
      split
      · have hinbox := delivering_offerInbox (inboxMessage e d.unresolved d.slot) hu (hnew .inbox (by decide))
        refine delivering_requestRelay e hinbox ?_
        rw [claims, offerInbox_relays]
        exact hnew .relay (by decide)
      · exact delivering_requestRelay e hu (hnew .relay (by decide))
    refine (hoffered _ (hdelivering.of_eq rfl ?_) ?_).finish.of_eq (releaseSlot_slots_eq ..) ?_
    · exact claims_congr rfl rfl rfl rfl
    · exact claims_congr rfl rfl rfl rfl
    · funext a
      cases a <;> rfl

/-! ## Every move -/

/-- Relay items changed in place keep their claims. -/
theorem relayClaims_inPlace {s : State} {rs : List (Option RelayItem)}
    (h : rs.map (Option.map RelayItem.claim) = s.relays.map (Option.map RelayItem.claim)) :
    rs.filterMap (Option.map RelayItem.slot) = s.relays.filterMap (Option.map RelayItem.slot) := by
  have hslot (l : List (Option RelayItem)) :
      l.filterMap (Option.map RelayItem.slot)
        = (l.map (Option.map RelayItem.claim)).filterMap (Option.map Prod.snd) := by
    rw [List.filterMap_map]
    refine List.filterMap_congr fun x _ => ?_
    cases x <;> rfl
  rw [hslot, h, ← hslot]

/-- Every move of the stores keeps the holders in agreement. -/
theorem accounted_of_move {s t : State} (hb : s.Bounds) (h : HoldersAccounted s.slots (claims s)) (hm : StoreMove s t) :
    HoldersAccounted t.slots (claims t) := by
  have hsame {u : State} (hst : (u.slots, u.inbox, u.relays, u.outbox, u.decoder)
      = (s.slots, s.inbox, s.relays, s.outbox, s.decoder)) : HoldersAccounted u.slots (claims u) := by
    simp only [Prod.mk.injEq] at hst
    obtain ⟨hslots, hinbox, hrelays, houtbox, hdecoder⟩ := hst
    exact h.of_eq hslots (claims_congr hinbox hrelays houtbox hdecoder)
  cases hm with
  | same hst =>
    simp only [State.stores, Prod.mk.injEq] at hst
    exact hsame (by simp only [hst])
  | emptied hst =>
    obtain ⟨-, -, hreset, -⟩ := resetMeetsTheInvariants
    simp only [State.stores, Prod.mk.injEq] at hst
    obtain ⟨-, -, -, hdecoder, -, hslots, hinbox, hrelays, houtbox, -⟩ := hst
    exact ((holdersAgree_iff _).1 hreset).of_eq hslots (claims_congr hinbox hrelays houtbox hdecoder)
  | assembler _ => exact hsame rfl
  | opened r _ _ => exact hsame (by simp)
  | matched i r => exact hsame (by simp)
  | expired _ _ => exact hsame rfl
  | marked _ => exact hsame rfl
  | taken => exact accounted_decoderTake h fun hd => exists_free hb h (.inl hd)
  | recovered hd payload => exact accounted_decodeSuccess h hd payload
  | failed hd =>
    refine (accounted_endDecode h hd).of_eq (settleFailure_slots ..) ?_
    exact claims_congr (settleFailure_inbox ..) (settleFailure_relays ..) (settleFailure_outbox ..)
      (settleFailure_decoder ..)
  | relays hrs =>
    refine h.of_eq rfl ?_
    funext a
    cases a with
    | relay => exact relayClaims_inPlace hrs
    | _ => rfl
  | relayGone hr => exact accounted_dropRelay h hr
  | origins hslot _ =>
    refine h.of_eq rfl ?_
    funext a
    cases a with
    | origin => exact hslot
    | _ => rfl
  | filed ho _ => exact accounted_fileReport h ho
  | reportCollected _ => exact accounted_removeReport h
  | messageCollected => exact accounted_removeMessage h
  | submitted p hroom => exact accounted_acceptSubmit h p (exists_free hb h (.inr hroom))

/-- Settles O55: every move of the stores keeps the bounds, and within them the holders; the count of the holders leaves
a slot free. -/
theorem stepKeepsTheBounds : Obligations.StepKeepsTheBounds := by
  intro s t hshape hcap
  have hb : s.Bounds := ⟨hshape, hcap⟩
  refine ⟨fun ht => ?_, fun h hroom => exists_free hb ((holdersAgree_iff s).1 h) hroom⟩
  obtain ⟨hshape', hcap'⟩ := step_keeps_of_moves (P := State.Bounds) bounds_of_move hb ht
  refine ⟨hshape', hcap', fun h => (holdersAgree_iff t).2 ?_⟩
  have hmove (u v : State) (hu : u.Bounds ∧ HoldersAccounted u.slots (claims u)) (hm : StoreMove u v) :
      v.Bounds ∧ HoldersAccounted v.slots (claims v) :=
    ⟨bounds_of_move u v hu.1 hm, accounted_of_move hu.1 hu.2 hm⟩
  exact (step_keeps_of_moves (P := fun u => u.Bounds ∧ HoldersAccounted u.slots (claims u)) hmove
    ⟨hb, (holdersAgree_iff s).1 h⟩ ht).2

end Sys2Proof.Machine
end

section
/-! PROOFS. Copies that reach an entry, the Decoder's take, the failure of a decode and the deadline of an entry (O19, O20,
O32, O33, O37). -/

namespace Sys2Proof.Machine

/-! ## A NEW copy (R56 to R58) -/

/-- An entry is filled at the FREE index chosen, and gated (R58, R61). -/
theorem openEntry_of_room {s : State} (r : CopyRecord) {i : Nat} (hi : s.table[i]? = some none)
    (hfirst : ∀ j, j < i → s.table[j]? ≠ some none) :
    openEntry r s = gated i (freshEntry r s.station.milliTimer s.cfg.windowCode) s := by
  have hroom : ¬ s.table.all Option.isSome = true := fun hall => by
    have := List.all_eq_true.1 hall none (List.mem_of_getElem? hi)
    cases this
  simp only [openEntry, if_neg hroom, freeEntry_eq s.table i hi hfirst]
  exact gate_putEntry i _ s (List.getElem?_eq_some_iff.1 hi).1

/-- With every entry occupied, the one evicted makes room (R57). -/
theorem openEntry_of_full {s : State} (r : CopyRecord) (hfull : none ∉ s.table) {v : Nat} {f : Entry}
    (hv : evictee s = some v) (hf : entryAt s v = some f) :
    openEntry r s =
      gated v (freshEntry r s.station.milliTimer s.cfg.windowCode)
        { s with
          counters := s.counters.bump .entriesEvicted
          decodeQueue := s.decodeQueue.filter (fun j => j ≠ v) } := by
  have hall : s.table.all Option.isSome = true := by
    refine List.all_eq_true.2 fun x hx => ?_
    cases x with
    | none => exact absurd hx hfull
    | some e => rfl
  have hlt := lt_length_of_entryAt hf
  have hgone : evict s =
      { s with
        counters := s.counters.bump .entriesEvicted
        table := s.table.set v none
        decodeQueue := s.decodeQueue.filter (fun j => j ≠ v) } := by
    have hfilter : (fun j => j != v) = fun j => decide (j ≠ v) := funext fun j => Bool.eq_iff_iff.2 (by simp)
    simp only [evict, hv, hfilter]
    rfl
  have hfree : freeEntry (s.table.set v none) = v := by
    refine freeEntry_eq _ v (by simp [hlt]) fun j hj hnone => ?_
    rw [List.getElem?_set_ne (Nat.ne_of_gt hj)] at hnone
    exact hfull (List.mem_of_getElem? hnone)
  simp only [openEntry, if_pos hall, hgone, hfree]
  rw [gate_putEntry v _ _ (by simpa using hlt)]
  simp only [gated, List.set_set]
  rfl

/-- Settles O19: the lowest FREE entry is filled; with none, the entry evicted is the earliest, and its place is filled. -/
theorem newCopyTakesAnEntry : Obligations.NewCopyTakesAnEntry := by
  intro s r hv e s1
  rw [giveVerdict_of_verdict hv]
  refine ⟨fun i hi hfirst => ?free, fun hfull hcandidate => ?full⟩
  case free => exact openEntry_of_room (s := count .copiesAccepted s) r hi hfirst
  case full =>
    obtain ⟨v, f, hevictee, hf, hst, hearliest⟩ := evictee_is_earliest s hcandidate
    exact ⟨v, f, hf, hst, hearliest, openEntry_of_full (s := count .copiesAccepted s) r hfull hevictee hf⟩

/-! ## A MATCH copy (R59, R60) -/

/-- Settles O20: the bookkeeping, and below 15 copies the merge and the gate. -/
theorem matchCopyMerges : Obligations.MatchCopyMerges := by
  intro s r i e hv he s1 heard
  have he1 : entryAt (count .copiesAccepted s) i = some e := he
  have hheard : e.hear r.header = heard := hear_eq_heardOnce e r.header
  have hcombined : heard.combined = e.combined := rfl
  rw [giveVerdict_of_verdict hv]
  simp only [actOn, matchCopy, he1, hheard, merge_eq_mergedWith, hcombined]
  refine ⟨fun hlt => ?_, fun hfull => ?_⟩
  · rw [if_pos hlt, gate_putEntry i _ _ (lt_length_of_entryAt he1)]
    rfl
  · rw [if_neg (Nat.not_lt.2 hfull)]
    rfl

/-! ## The Decoder's take (R63, R78, R79) -/

/-- Settles O32: the head of the Decode Queue is taken, the lowest free slot reserved. -/
theorem decoderTakesTheHead : Obligations.DecoderTakesTheHead := by
  intro s i k rest e sl hh hd hq he hsl hfree hlowest
  have hslot := lowestFree_eq s.slots k sl hsl hfree hlowest
  show Host.Outcome.next (live decoderTake s) = _
  rw [live_running hh]
  simp only [decoderTake, hd, hq, he, hslot, holdSlot, newDecode, unresolvedCount_eq, modify_eq_set _ _ _ hsl]
  rfl

/-! ## The completion of a decode (R82) -/

section
variable {s : State} {d : Decode} (hh : s.station.held = false) (hd : s.decoder = some d)
include hh hd

/-- The decode in progress succeeds at its completion time (R82, R83). -/
theorem exec_decodeCompletion_of_payload {payload : List Byte}
    (h : decodeOutcome d.length d.identityBlock d.snapshot = some payload) :
    exec .decodeCompletion s = .next (settleAttn (decodeSuccess d payload (runToPeriod d.completion s))) := by
  show Host.Outcome.next (live decodeCompletion s) = _
  rw [live_running hh]
  simp only [decodeCompletion, hd, h]

/-- The decode in progress fails at its completion time (R82, R84). -/
theorem exec_decodeCompletion_of_failure (h : decodeOutcome d.length d.identityBlock d.snapshot = none) :
    exec .decodeCompletion s = .next (settleAttn (decodeFailure d (runToPeriod d.completion s))) := by
  show Host.Outcome.next (live decodeCompletion s) = _
  rw [live_running hh]
  simp only [decodeCompletion, hd, h]

end

/-- The Decoder IDLE, its hold on the slot let go (R83, R84). -/
theorem endDecode_eq (k : Nat) (s : State) :
    endDecode k s = { s with decoder := none, slots := s.slots.modify k (slotWithout .decoder) } := by
  rw [endDecode, releaseSlot, settle_setHold_fun]

/-- The coverage gate (R61). -/
theorem covered_iff (e : Entry) :
    e.covered = true ↔ e.accumulators.count 0 ≤ (16 * e.identity.length + 40) / 4 := decide_eq_true_iff

/-- How a failed decode settles its entry (R69). -/
theorem settleFailure_of_entry {s : State} {i : Nat} {e : Entry} (he : entryAt s i = some e) :
    settleFailure i s =
      if e.final = true then expireEntry i (count .decodesFailed s)
      else if e.recheck = true ∧ e.covered = true then enqueue i { e with recheck := false } (count .decodesFailed s)
      else putEntry i (some { e with state := .waiting, recheck := false }) (count .decodesFailed s) := by
  have he1 : entryAt (count .decodesFailed s) i = some e := he
  simp only [settleFailure, he1]

/-- Settles O33: the entry is freed under FINAL, queued again under RECHECK if it passes the gate, else WAITING. -/
theorem failedDecodeSettlesTheEntry : Obligations.FailedDecodeSettlesTheEntry := by
  intro s d e hh hd he hfail s1 s2 passes
  have hs2 : count .decodesFailed (endDecode d.slot s1) = s2 := by
    rw [endDecode_eq]
    simp only [s1, s2, count, runToPeriod_slots, runToPeriod_counters]
  have hpasses : e.covered = true ↔ passes := covered_iff e
  have he1 : entryAt (endDecode d.slot s1) d.entry = some e := by
    rw [endDecode_eq]
    exact (runToPeriod_entryAt s d.completion d.entry).trans he
  have htable : s2.table = s.table := runToPeriod_table s d.completion
  have hqueue : s2.decodeQueue = s.decodeQueue := runToPeriod_decodeQueue s d.completion
  rw [exec_decodeCompletion_of_failure hh hd hfail, decodeFailure, settleFailure_of_entry he1, hs2]
  refine ⟨fun hfinal => ?final, fun hfinal hrecheck hpass => ?again, fun hfinal hnot => ?waiting⟩
  case final => rw [if_pos hfinal, expireEntry, putEntry, count, htable]
  case again =>
    rw [if_neg (Bool.eq_false_iff.1 hfinal), if_pos ⟨hrecheck, hpasses.2 hpass⟩, enqueue, htable, hqueue]
  case waiting => rw [if_neg (Bool.eq_false_iff.1 hfinal), if_neg fun h => hnot ⟨h.1, hpasses.1 h.2⟩, putEntry, htable]

/-! ## The deadline of an entry (R64 to R66) -/

/-- Settles O37: WAITING the entry is freed, else it takes FINAL. -/
theorem entryDeadlineFreesOrMarks : Obligations.EntryDeadlineFreesOrMarks := by
  intro s i e hh he hfinal s1
  have htable : s1.table = s.table := runToMilli_table s e.deadline
  have hcounters : s1.counters = s.counters := runToMilli_counters s e.deadline
  have hexec : exec (.entryDeadline i) s = .next (settleAttn
      (if e.state = .waiting then expireEntry i s1 else putEntry i (some { e with final := true }) s1)) := by
    show Host.Outcome.next (live (entryDeadline i) s) = _
    rw [live_running hh]
    simp only [entryDeadline, he, hfinal, Bool.false_eq_true, if_false]
    rfl
  rw [hexec]
  refine ⟨fun hw => ?waiting, fun hw => ?other⟩
  case waiting => rw [if_pos hw, expireEntry, putEntry, count, htable, hcounters]
  case other => rw [if_neg hw, putEntry, htable]

end Sys2Proof.Machine
end

section
/-! PROOFS. Delivery: what a decode that succeeds does in every block (O34). -/

namespace Sys2Proof.Machine

/-! ## Counters -/

theorem get_bump (cs : Counters) (a c : Counter) :
    (cs.bump a).get c = if c = a then saturate (cs.get c) else cs.get c := by
  cases a <;> cases c <;> rfl

/-- A counter incremented under a condition (R166). -/
def Counters.bumpIf (b : Bool) (a : Counter) (cs : Counters) : Counters := if b then cs.bump a else cs

theorem get_bumpIf (b : Bool) (a c : Counter) (cs : Counters) :
    (cs.bumpIf b a).get c = if c = a ∧ b = true then saturate (cs.get c) else cs.get c := by
  cases b with
  | false => simp [Counters.bumpIf]
  | true => simp [Counters.bumpIf, get_bump]

/-! ## The Inbox (R103) -/

/-- A slot changed in nothing. -/
theorem modify_of_id {α : Type} {f : α → α} (hf : ∀ a, f a = a) (l : List α) (k : Nat) : l.modify k f = l := by
  rw [show f = id from funext hf, List.modify_id]

/-- A message, offered where it is for this station: kept by an Inbox with room, else dropped. -/
theorem offerInbox_eq (mine : Bool) (m : Message) (s : State) :
    (if mine then offerInbox m s else s) =
      { s with
        inbox := if mine && decide (s.inbox.length < 12) then s.inbox ++ [m] else s.inbox
        flags := { s.flags with
          inboxOverflow := s.flags.inboxOverflow || (mine && decide (12 ≤ s.inbox.length)) }
        counters := (s.counters.bumpIf (mine && decide (s.inbox.length < 12)) .messagesDelivered).bumpIf
          (mine && decide (12 ≤ s.inbox.length)) .inboxOverflows
        slots := s.slots.modify m.slot fun sl =>
          { sl with byInbox := sl.byInbox || (mine && decide (s.inbox.length < 12)) } } := by
  cases mine with
  | false => simp [Counters.bumpIf, modify_of_id]
  | true =>
    by_cases hroom : s.inbox.length < 12
    · simp [offerInbox, count, holdSlot, Slot.setHold, Counters.bumpIf, hroom, Nat.not_le.2 hroom]
    · simp [offerInbox, count, flagInboxOverflow, Counters.bumpIf, hroom, Nat.not_lt.1 hroom, modify_of_id]

/-! ## The Relay Schedule (R110 to R113) -/

/-- A drawn hold-off is in its window (R113). -/
theorem nextDraw_holdOff_lt (s : State) (c : ConfigRecord) (urgent : Bool) (h : 1 ≤ c.holdOffWindow) :
    s.nextDraw (c.holdOffRange urgent) < if urgent then max 1 (c.holdOffWindow / 4) else c.holdOffWindow := by
  unfold State.nextDraw ConfigRecord.holdOffRange
  split
  · exact Nat.mod_lt _ (Nat.lt_of_lt_of_le Nat.one_pos (Nat.le_max_left ..))
  · exact Nat.mod_lt _ h

section
variable {s : State} {e : Entry} {asked room : Bool} (hasked : asked = true ↔ RelayAsked s e)
  (hroom : room = true ↔ none ∈ s.relays)
include hasked hroom

/-- What a request for a relay item does beside the schedule: a refusal is counted and flagged, an item holds its slot
(R111, R112). -/
theorem requestRelay_eq (slot : Nat) :
    requestRelay e slot s =
      { s with
        flags := { s.flags with scheduleFull := s.flags.scheduleFull || (asked && !room) }
        counters := s.counters.bumpIf (asked && !room) .relaysRefused
        slots := s.slots.modify slot fun sl => { sl with byRelay := sl.byRelay || (asked && room) }
        relays := (requestRelay e slot s).relays
        drawCount := (requestRelay e slot s).drawCount } := by
  rcases requestRelay_cases e slot s with ⟨hno, heq⟩ | ⟨hyes, hfull, heq⟩ | ⟨hyes, i, hfree, -, heq⟩
  · obtain rfl : asked = false := Bool.eq_false_iff.2 fun h => hno (hasked.1 h)
    simp [heq, Counters.bumpIf, modify_of_id]
  · obtain rfl := hasked.2 hyes
    obtain rfl : room = false := Bool.eq_false_iff.2 fun h => hfull (hroom.1 h)
    simp [heq, count, flagScheduleFull, Counters.bumpIf, modify_of_id]
  · obtain rfl := hasked.2 hyes
    obtain rfl := hroom.2 (List.mem_of_getElem? hfree)
    simp [heq, holdSlot, withRelay, State.drawn, Slot.setHold, Counters.bumpIf]

theorem requestRelay_of_none (slot : Nat) (h : asked = false ∨ room = false) :
    (requestRelay e slot s).relays = s.relays ∧ (requestRelay e slot s).drawCount = s.drawCount := by
  rcases requestRelay_cases e slot s with ⟨-, heq⟩ | ⟨-, -, heq⟩ | ⟨hyes, i, hfree, -, -⟩
  · rw [heq]
    exact ⟨rfl, rfl⟩
  · rw [heq]
    exact ⟨rfl, rfl⟩
  · obtain rfl := hasked.2 hyes
    obtain rfl := hroom.2 (List.mem_of_getElem? hfree)
    simp at h

end

/-- An item asked for takes the lowest vacant place, its hold-off drawn (R109, R112, R113). -/
theorem requestRelay_of_place {s : State} {e : Entry} (slot : Nat) (hasked : RelayAsked s e) {i : Nat}
    (hi : s.relays[i]? = some none) (hfirst : ∀ j, j < i → s.relays[j]? ≠ some none) :
    (requestRelay e slot s).drawCount = s.drawCount + 1
    ∧ ∃ draw,
      (1 ≤ s.cfg.holdOffWindow →
        draw < if e.identity.urgent then max 1 (s.cfg.holdOffWindow / 4) else s.cfg.holdOffWindow)
      ∧ (requestRelay e slot s).relays =
        s.relays.set i (some (madeRelay e slot (s.station.milliTimer + BitVec.ofNat 32 draw))) := by
  rcases requestRelay_cases e slot s with ⟨hno, -⟩ | ⟨-, hfull, -⟩ | ⟨-, j, hj, hjfirst, heq⟩
  · exact absurd hasked hno
  · exact absurd (List.mem_of_getElem? hi) hfull
  · obtain rfl : i = j := by
      rcases Nat.lt_trichotomy i j with hij | hij | hij
      · exact absurd hi (hjfirst i hij)
      · exact hij
      · exact absurd hj (hfirst j hij)
    rw [heq]
    exact ⟨rfl, _, nextDraw_holdOff_lt s s.cfg e.identity.urgent, rfl⟩

/-! ## The whole delivery -/

/-- The state in which the request for a relay item is made: payload written, entry freed, key kept, message offered
(R67, R68, R92, R94). -/
def offered (mine : Bool) (d : Decode) (e : Entry) (payload : List Byte) (s : State) : State :=
  let u : State :=
    { writeSlot d.slot payload s with table := s.table.set d.entry none, history := insertKey s.history e.key }
  if mine then offerInbox (madeMessage e d) u else u

/-- A decode that succeeds on an entry: offered, the relay item requested, the reservation ended (R67, R68, R83). -/
theorem decodeSuccess_of_entry {d : Decode} {e : Entry} {s : State} (payload : List Byte)
    (he : entryAt s d.entry = some e) :
    decodeSuccess d payload s =
      endDecode d.slot (requestRelay e d.slot (offered (forThisStation s.cfg e.identity) d e payload s)) := by
  have he' : entryAt (writeSlot d.slot payload s) d.entry = some e := he
  simp only [decodeSuccess, he']
  rfl

/-- Everything in the offer but the Inbox and its marks is as the decode left it. -/
theorem offered_eq (mine : Bool) (d : Decode) (e : Entry) (payload : List Byte) (s : State) :
    offered mine d e payload s =
      { s with
        table := s.table.set d.entry none
        history := insertKey s.history e.key
        inbox := if mine && decide (s.inbox.length < 12) then s.inbox ++ [madeMessage e d] else s.inbox
        flags := { s.flags with
          inboxOverflow := s.flags.inboxOverflow || (mine && decide (12 ≤ s.inbox.length)) }
        counters := (s.counters.bumpIf (mine && decide (s.inbox.length < 12)) .messagesDelivered).bumpIf
          (mine && decide (12 ≤ s.inbox.length)) .inboxOverflows
        slots := s.slots.modify d.slot fun sl =>
          { sl with payload := payload, byInbox := sl.byInbox || (mine && decide (s.inbox.length < 12)) } } := by
  rw [offered, offerInbox_eq]
  simp only [writeSlot, List.modify_modify_eq, madeMessage]
  rfl

theorem offered_relays (mine : Bool) (d : Decode) (e : Entry) (payload : List Byte) (s : State) :
    (offered mine d e payload s).relays = s.relays := by
  rw [offered_eq]

theorem offered_drawCount (mine : Bool) (d : Decode) (e : Entry) (payload : List Byte) (s : State) :
    (offered mine d e payload s).drawCount = s.drawCount := by
  rw [offered_eq]

theorem offered_station (mine : Bool) (d : Decode) (e : Entry) (payload : List Byte) (s : State) :
    (offered mine d e payload s).station = s.station := by
  rw [offered_eq]

theorem offered_relayAsked (mine : Bool) (d : Decode) (e f : Entry) (payload : List Byte) (s : State) :
    RelayAsked (offered mine d e payload s) f ↔ RelayAsked s f := by
  rw [offered_eq]
  rfl

/-- What a decode that succeeds does, the relay item's place apart. -/
theorem decodeSuccess_eq {d : Decode} {e : Entry} {s : State} (payload : List Byte) {mine asked room : Bool}
    (he : entryAt s d.entry = some e) (hmine : forThisStation s.cfg e.identity = mine)
    (hasked : asked = true ↔ RelayAsked s e) (hroom : room = true ↔ none ∈ s.relays) :
    decodeSuccess d payload s =
      { s with
        table := s.table.set d.entry none
        decoder := none
        history := insertKey s.history e.key
        inbox := if mine && decide (s.inbox.length < 12) then s.inbox ++ [madeMessage e d] else s.inbox
        flags := { s.flags with
          inboxOverflow := s.flags.inboxOverflow || (mine && decide (12 ≤ s.inbox.length))
          scheduleFull := s.flags.scheduleFull || (asked && !room) }
        counters := ((s.counters.bumpIf (mine && decide (s.inbox.length < 12)) .messagesDelivered).bumpIf
          (mine && decide (12 ≤ s.inbox.length)) .inboxOverflows).bumpIf (asked && !room) .relaysRefused
        slots := s.slots.modify d.slot fun sl =>
          slotWithout .decoder
            { sl with
              payload := payload
              byInbox := sl.byInbox || (mine && decide (s.inbox.length < 12))
              byRelay := sl.byRelay || (asked && room) }
        relays := (requestRelay e d.slot (offered mine d e payload s)).relays
        drawCount := (requestRelay e d.slot (offered mine d e payload s)).drawCount } := by
  have hasked' := hasked.trans (offered_relayAsked mine d e e payload s).symm
  have hroom' : room = true ↔ none ∈ (offered mine d e payload s).relays := by rwa [offered_relays]
  rw [decodeSuccess_of_entry payload he, hmine, endDecode_eq, requestRelay_eq hasked' hroom', offered_eq,
    List.modify_modify_eq, List.modify_modify_eq]
  rfl

/-- The counters a decode that succeeds increments (R68, R103, R111). -/
theorem get_delivery_counters (cs : Counters) (kept dropped refused : Bool) (c : Counter) :
    (((cs.bumpIf kept .messagesDelivered).bumpIf dropped .inboxOverflows).bumpIf refused .relaysRefused).get c =
      if (c = .messagesDelivered ∧ kept = true) ∨ (c = .inboxOverflows ∧ dropped = true)
          ∨ (c = .relaysRefused ∧ refused = true)
      then saturate (cs.get c) else cs.get c := by
  rw [get_bumpIf, get_bumpIf, get_bumpIf]
  by_cases hm : c = .messagesDelivered
  · subst hm
    simp
  by_cases hi : c = .inboxOverflows
  · subst hi
    simp
  simp [hm, hi]

theorem insertKey_of_room {history : List Key} (k : Key) (h : history.length < 32) :
    insertKey history k = history ++ [k] := by
  rw [insertKey, if_pos h]

theorem insertKey_of_full {history : List Key} (k : Key) (h : history.length = 32) :
    insertKey history k = history.tail ++ [k] := by
  rw [insertKey, if_neg fun hlt => Nat.ne_of_lt hlt h]

/-- Settles O34: the message is offered, the relay item requested, and the reservation ended. -/
theorem successfulDecodeDelivers : Obligations.SuccessfulDecodeDelivers := by
  intro s d e payload hh hd he hpayload s1 mine kept dropped asked room
  have he1 : entryAt s1 d.entry = some e := (runToPeriod_entryAt s d.completion d.entry).trans he
  have hmine : forThisStation s1.cfg e.identity = mine := by rw [runToPeriod_cfg]
  have hask : RelayAsked s1 e ↔ RelayAsked s e := by
    simp only [s1, RelayAsked, runToPeriod_station_state, runToPeriod_cfg, runToPeriod_relays]
  have hasked : asked = true ↔ RelayAsked s1 e := decide_eq_true_iff.trans hask.symm
  have hroom : room = true ↔ none ∈ s1.relays := by
    rw [runToPeriod_relays]
    exact decide_eq_true_iff
  have heq := decodeSuccess_eq payload he1 hmine hasked hroom
  have hrelays : (offered mine d e payload s1).relays = s.relays :=
    (offered_relays ..).trans (runToPeriod_relays s d.completion)
  have hdraws : (offered mine d e payload s1).drawCount = s.drawCount :=
    (offered_drawCount ..).trans (runToPeriod_drawCount s d.completion)
  have hasked' := hasked.trans (offered_relayAsked mine d e e payload s1).symm
  refine ⟨_, exec_decodeCompletion_of_payload hh hd hpayload, ?table, ?decoder, ?keyRoom, ?keyFull, ?inbox, ?flags,
    ?counters, ?noItem, ?item, ?slots, ?frame⟩
  case frame =>
    obtain ⟨_, _, _, _, _, _, _, _, _, h⟩ := decodeSuccess_frame s1 d payload
    rw [h]
  all_goals rw [heq]
  case table => exact congrArg (·.set d.entry none) (runToPeriod_table s d.completion)
  case keyRoom =>
    intro h
    rw [← insertKey_of_room e.key h, ← runToPeriod_history s d.completion]
  case keyFull =>
    intro h
    rw [← insertKey_of_full e.key h, ← runToPeriod_history s d.completion]
  case inbox => simp only [s1, runToPeriod_inbox, kept]
  case flags => simp only [s1, runToPeriod_flags, runToPeriod_inbox, dropped]
  case counters =>
    intro c
    refine (get_delivery_counters ..).trans ?_
    simp only [s1, runToPeriod_counters, runToPeriod_inbox, kept, dropped, Bool.and_eq_true, Bool.not_eq_true']
  case noItem =>
    intro h
    obtain ⟨hr, hc⟩ := requestRelay_of_none hasked' (by rwa [offered_relays]) d.slot h
    exact ⟨hr.trans hrelays, hc.trans hdraws⟩
  case item =>
    intro hyes i hi hfirst
    have hcfg : (offered mine d e payload s1).cfg = s.cfg := by
      rw [State.cfg, offered_station]
      exact runToPeriod_cfg s d.completion
    obtain ⟨hc, draw, hlt, hr⟩ := requestRelay_of_place d.slot (hasked'.1 hyes) (by rwa [hrelays]) (by rwa [hrelays])
    rw [hcfg] at hlt
    rw [hrelays, offered_station] at hr
    exact ⟨hc.trans (congrArg (· + 1) hdraws), draw, hlt, hr⟩
  case slots => simp only [s1, runToPeriod_slots, runToPeriod_inbox, kept]

end Sys2Proof.Machine
end

section
/-! PROOFS. SUBMIT, the two collects and the final bytes of the destructive reads; the messages for this station (O35,
O46, O47, O51). -/

namespace Sys2Proof.Machine

/-! ## Requests and the station state (R175) -/

theorem whenConfigured_of_unconfigured {s : State} (take : State → State) (h : s.station.state = .unconfigured) :
    whenConfigured take s = answered .notConfigured [] .nothing s := if_pos h

theorem whenConfigured_of_configured {s : State} (take : State → State) (h : s.station.state ≠ .unconfigured) :
    whenConfigured take s = take s := if_neg h

/-! ## SUBMIT (R145 to R147) -/

/-- A kind byte of 2 names ALL, and one that names no kind stands for ALL too, though no such SUBMIT is accepted
(R181). -/
theorem submitIdentity_eq (p : SubmitParams) :
    submitIdentity p =
      ⟨p.destination, if p.kind = 0 then .station else if p.kind = 1 then .group else .all, p.urgent != 0,
        p.payload.length⟩ := by
  have hkind : (submitKind p).getD .all = if p.kind = 0 then .station else if p.kind = 1 then .group else .all := by
    unfold submitKind
    split
    · rfl
    · split
      · rfl
      · split <;> rfl
  rw [submitIdentity, hkind]

/-- An accepted SUBMIT takes the first free slot: written and held in one (R97, R98). -/
theorem acceptSubmit_of_first_free (p : SubmitParams) {s : State} {k : Nat} {sl : Slot} (hk : s.slots[k]? = some sl)
    (hfree : sl.isFree = true) (hfirst : ∀ j x, j < k → s.slots[j]? = some x → x.isFree = false) :
    acceptSubmit p s =
      { s with
        slots := s.slots.set k { sl with payload := p.payload, byOrigin := true }
        station := { s.station with nextSequence := s.station.nextSequence + 1 }
        outbox := s.outbox ++ [newOrigin p k s] } := by
  have hlowest : lowestFree s.slots = k := lowestFree_eq s.slots k sl hk hfree hfirst
  have hslots : (s.slots.modify k fun sl => { sl with payload := p.payload }).modify k (·.setHold .origin true)
      = s.slots.set k { sl with payload := p.payload, byOrigin := true } := by
    rw [modify_eq_set _ _ _ hk, modify_eq_set _ _ _ (getElem?_set_of_some _ _ _ hk), List.set_set]
    rfl
  simp only [acceptSubmit, holdSlot, writeSlot, hlowest, hslots]

/-- Settles O46: SUBMIT is refused with nothing changed, or its item joins the Outbox. -/
theorem submitTaken : Obligations.SubmitTaken := by
  intro s p hh hcomplete s1 own configured
  have hexec : exec (.submit p) s = .next (settleAttn (whenConfigured (takeSubmit p) s1)) :=
    congrArg Host.Outcome.next (live_hostRequest_of_completes hh hcomplete)
  rw [hexec]
  refine ⟨fun hu => ?unconfigured, fun hc hbad => ?badParameter, fun hc hok hfull => ?full,
    fun hc hok hroom k sl hk hfree hfirst => ?taken⟩
  case unconfigured => rw [whenConfigured_of_unconfigured (s := s1) _ hu]
  case badParameter =>
    have hinvalid : (!submitValid p s1.cfg.stationId) = true := by
      rw [Bool.not_eq_true', ← Bool.not_eq_true]
      exact fun h => hbad ((submitValid_iff p own).1 h)
    rw [whenConfigured_of_configured (s := s1) _ hc, takeSubmit, if_pos hinvalid]
    rfl
  all_goals
    have hvalid : ¬ (!submitValid p s1.cfg.stationId) = true := by
      rw [Bool.not_eq_true', Bool.not_eq_false]
      exact (submitValid_iff p own).2 hok
    rw [whenConfigured_of_configured (s := s1) _ hc, takeSubmit, if_neg hvalid]
  case full =>
    have hnoRoom : ¬ s1.outbox.length < Config.originItems := Nat.not_lt.2 hfull
    rw [if_neg hnoRoom]
    rfl
  case taken =>
    have hroom1 : s1.outbox.length < Config.originItems := hroom
    rw [if_pos hroom1, acceptSubmit_of_first_free p (s := s1) hk hfree hfirst, newOrigin, submitIdentity_eq,
      ← sequenceBytes_eq]
    rfl

/-! ## The collects (R104, R156, R182) -/

/-- The COLLECT_REPORT body, field by field (R182). -/
theorem reportBody_eq (r : Report) :
    reportBody r =
      [r.handle, r.sequence.extractLsb' 0 8, (r.sequence.extractLsb' 8 4).setWidth 8, BitVec.ofNat 8 r.repeatsRequested,
        BitVec.ofNat 8 r.repeatsSent, BitVec.ofNat 8 r.echoes, r.outcome.code] := by
  rw [reportBody, ← sequenceBytes_eq]
  rfl

/-- Settles O47: each collect answers with the head of its store, which stays there. -/
theorem collectsCopyTheHead : Obligations.CollectsCopyTheHead := by
  intro s hh
  refine ⟨fun hcomplete => ?message, fun hcomplete => ?report⟩
  case message =>
    intro s1
    have hexec : exec .collectMessage s = .next (settleAttn (whenConfigured takeCollectMessage s1)) :=
      congrArg Host.Outcome.next (live_hostRequest_of_completes hh hcomplete)
    rw [hexec]
    refine ⟨fun hu => ?_, fun hc hnil => ?_, fun hc m rest hcons => ?_⟩
    · rw [whenConfigured_of_unconfigured (s := s1) _ hu]
    · have hnil1 : s1.inbox = [] := hnil
      rw [whenConfigured_of_configured (s := s1) _ hc, takeCollectMessage, hnil1]
      rfl
    · have hcons1 : s1.inbox = m :: rest := hcons
      rw [whenConfigured_of_configured (s := s1) _ hc, takeCollectMessage, hcons1, messageRecord_eq]
      rfl
  case report =>
    intro s1
    have hexec : exec .collectReport s = .next (settleAttn (whenConfigured takeCollectReport s1)) :=
      congrArg Host.Outcome.next (live_hostRequest_of_completes hh hcomplete)
    rw [hexec]
    refine ⟨fun hu => ?_, fun hc hnil => ?_, fun hc r rest hcons => ?_⟩
    · rw [whenConfigured_of_unconfigured (s := s1) _ hu]
    · have hnil1 : s1.reports = [] := hnil
      rw [whenConfigured_of_configured (s := s1) _ hc, takeCollectReport, hnil1]
      rfl
    · have hcons1 : s1.reports = r :: rest := hcons
      rw [whenConfigured_of_configured (s := s1) _ hc, takeCollectReport, hcons1]
      dsimp only
      rw [reportBody_eq]
      rfl

/-! ## The final bytes (R104, R155, R156, R167, R176) -/

/-- A response clocked to its end has the effect of its final byte, and no other command's (R176). -/
theorem live_clockToEnd {s : State} {r : Response} (hh : s.station.held = false) (hphase : s.port.phase = .response)
    (hresponse : s.port.response = some r) :
    live (clockToEnd r.commit) s = settleAttn (commitResponse r (clockedOut r s)) := by
  rw [live_running hh, clockToEnd, hphase, hresponse]
  simp only [if_true]
  rfl

/-- The head of the Inbox removed, its slot let go (R99, R104). -/
theorem removeMessage_of_cons {s : State} {m : Message} {rest : List Message} (h : s.inbox = m :: rest) :
    removeMessage s = { s with inbox := rest, slots := s.slots.modify m.slot (slotWithout .inbox) } := by
  simp only [removeMessage, h, releaseSlot, settle_setHold_fun]

/-- The first REPORT_PENDING item of an Outbox (R155). -/
theorem firstPending_of_first {outbox : List OriginItem} {i : Nat} {o : OriginItem} (hi : outbox[i]? = some o)
    (hwaits : o.state = .reportPending)
    (hfirst : ∀ j p, j < i → outbox[j]? = some p → p.state ≠ .reportPending) : firstPending outbox = some i := by
  obtain ⟨hlt, hget⟩ := List.getElem?_eq_some_iff.1 hi
  refine List.findIdx?_eq_some_iff_getElem.2 ⟨hlt, by simp [hget, hwaits], fun j hj => ?_⟩
  simpa using hfirst j _ hj (List.getElem?_eq_getElem (hj.trans hlt))

/-- No item of an Outbox is REPORT_PENDING (R155). -/
theorem firstPending_of_none {outbox : List OriginItem} (h : ∀ o ∈ outbox, o.state ≠ .reportPending) :
    firstPending outbox = none :=
  List.findIdx?_eq_none_iff.2 fun o ho => by simpa using h o ho

/-- The head of the Report Queue removed where no report waits for its room (R155, R156). -/
theorem removeReport_of_none_waiting {s : State} {x : Report} {rest : List Report} (h : s.reports = x :: rest)
    (hnone : rest.length ≠ 7 ∨ ∀ o ∈ s.outbox, o.state ≠ .reportPending) :
    removeReport s = { s with reports := rest } := by
  simp only [removeReport, h, List.tail_cons]
  split
  · next hseven =>
    have hwaits := hnone.resolve_left (not_not_intro (Nat.succ.inj hseven))
    rw [firstPending_of_none hwaits]
  · rfl

/-- The head of the Report Queue removed from a full queue, and the first report that waits filed in its room (R155,
R156). -/
theorem removeReport_of_waiting {s : State} {x : Report} {rest : List Report} {i : Nat} {o : OriginItem}
    (h : s.reports = x :: rest) (hseven : rest.length = 7) (hi : s.outbox[i]? = some o)
    (hwaits : o.state = .reportPending)
    (hfirst : ∀ j p, j < i → s.outbox[j]? = some p → p.state ≠ .reportPending) :
    removeReport s = filed i o { s with reports := rest } := by
  simp only [removeReport, h, List.tail_cons, firstPending_of_first hi hwaits hfirst, hi, fileReport_eq_filed]
  exact if_pos (congrArg (· + 1) hseven)

/-- A cleared counter is 0 (R167). -/
theorem get_zero (c : Counter) : Counters.zero.get c = 0 := by cases c <;> rfl

/-- Settles O51: the final byte of a destructive read commits it, once. -/
theorem finalBytesCommitReads : Obligations.FinalBytesCommitReads := by
  intro s r hh hphase hresponse s1
  have hlive : live (clockToEnd r.commit) s = settleAttn (commitResponse r s1) := live_clockToEnd hh hphase hresponse
  refine ⟨fun hcommit => ?inbox, fun hcommit => ?reports, fun hcommit => ?counters⟩
  all_goals rw [hcommit, commitResponse, hcommit] at hlive
  case inbox =>
    have hexec : exec .collectMessageFinalByte s = .next (settleAttn (if r.present then removeMessage s1 else s1)) :=
      congrArg Host.Outcome.next hlive
    rw [hexec]
    refine ⟨fun hpresent m rest hcons => ?_, fun hgone => ?_⟩
    · rw [if_pos hpresent, removeMessage_of_cons (s := s1) hcons]
      rfl
    · rcases hgone with habsent | hnil
      · rw [habsent]
        rfl
      · have hnil1 : s1.inbox = [] := hnil
        rw [removeMessage, hnil1, ite_self]
  case reports =>
    have hexec : exec .collectReportFinalByte s
        = .next (settleAttn (if r.present && !s1.reports.isEmpty then removeReport s1 else s1)) :=
      congrArg Host.Outcome.next hlive
    rw [hexec]
    refine ⟨fun hpresent x rest hcons => ?_, fun hgone => ?_⟩
    · have hcons1 : s1.reports = x :: rest := hcons
      have hthere : (r.present && !s1.reports.isEmpty) = true := by rw [hpresent, hcons1]; rfl
      rw [if_pos hthere]
      refine ⟨fun hnone => ?_, fun i o hseven hi hwaits hfirst => ?_⟩
      · rw [removeReport_of_none_waiting hcons1 hnone]
      · rw [removeReport_of_waiting hcons1 hseven hi hwaits hfirst]
    · have hnothing : ¬ (r.present && !s1.reports.isEmpty) = true := by
        rcases hgone with habsent | hnil
        · simp [habsent]
        · have hnil1 : s1.reports = [] := hnil
          simp [hnil1]
      rw [if_neg hnothing]
  case counters =>
    exact ⟨{ s1 with counters := Counters.zero }, congrArg Host.Outcome.next hlive, get_zero, rfl⟩

/-! ## Messages for this station (R101) -/

/-- Settles O35: each kind of destination has its own test. -/
theorem destinationMatch : Obligations.DestinationMatch := by
  intro c i
  unfold forThisStation
  cases i.kind with
  | all => simp
  | group => simp
  | station => simp

end Sys2Proof.Machine
end

section
/-! PROOFS. The two suppression checks of a relay item; the grant of an item and the completion of its backoff (O24, O26,
O38). -/

namespace Sys2Proof.Machine

/-! ## The item at its index -/

/-- A relay item changed in place, where it is known (R108). -/
theorem updateRelay_of_relayAt {s : State} {i : Nat} {r : RelayItem} (f : RelayItem → RelayItem)
    (hr : relayAt s i = some r) : updateRelay i f s = { s with relays := s.relays.set i (some (f r)) } := by
  rw [updateRelay, modify_eq_set _ _ _ (relays_of_relayAt hr)]
  rfl

/-- A suppression is a removal that is counted (R115, R117). -/
theorem suppressRelay_eq_relayGone (i : Nat) (r : RelayItem) (s : State) :
    suppressRelay i r s = relayGone i r { s with counters := s.counters.bump .relaysSuppressed } := by
  rw [suppressRelay, dropRelay_eq_relayGone]
  rfl

/-- A CONTENDING relay item becomes SENDING with its ready time kept (R117, R133). -/
theorem markSending_relay {s : State} {i : Nat} {r : RelayItem} {since : Millis} (hr : relayAt s i = some r)
    (hst : r.state = .contending since) :
    markSending (.relay i) s = { s with relays := s.relays.set i (some { r with state := .sending since }) } := by
  rw [markSending, updateRelay_of_relayAt _ hr, hst]
  rfl

/-- A CONTENDING origin item becomes SENDING with its ready time kept (R133, R149). -/
theorem markSending_origin {s : State} {i : Nat} {o : OriginItem} {since : Millis} (ho : s.outbox[i]? = some o)
    (hst : o.state = .contending since) :
    markSending (.origin i) s = { s with outbox := s.outbox.set i { o with state := .sending since } } := by
  rw [markSending, updateOrigin, modify_eq_set _ _ _ ho, hst]
  rfl

/-! ## The grant (R127, R129) -/

/-- A READY relay item contends under its ready time (R116). -/
theorem relay_contend_of_isReady {s : State} {i : Nat} (h : isReady s (.relay i)) :
    ∃ r, relayAt s i = some r ∧ r.state.contend = .contending (readyTime s (.relay i)) := by
  obtain ⟨r, t, hr, hst⟩ := h
  refine ⟨r, hr, ?_⟩
  rw [readyTime, hr, Option.map_some, hst]
  rfl

/-- A READY origin item contends under its ready time (R149). -/
theorem origin_contend_of_isReady {s : State} {i : Nat} (h : isReady s (.origin i)) :
    ∃ o, s.outbox[i]? = some o ∧ o.state.contend = .contending (readyTime s (.origin i)) := by
  obtain ⟨o, t, ho, hst⟩ := h
  refine ⟨o, ho, ?_⟩
  rw [readyTime, ho, Option.map_some, hst]
  rfl

/-- GRANT in IDLE takes the item that the arbiter chooses. -/
theorem exec_grant_of_arbitrate {s : State} {g : Granted} (hh : s.station.held = false)
    (hc : s.transmit.controller = .idle) (hg : arbitrate s = some g) :
    exec .grant s = .next (settleAttn (grantItem g s)) := by
  show Host.Outcome.next (live _ _) = _
  rw [live_running hh]
  simp only [grant, hc, hg]

/-- The grant on an IDLE view ends with the draw (R129). -/
theorem grantItem_of_view_idle (g : Granted) {s : State} (hv : s.transmit.view = .idle) :
    grantItem g s = drawBackoff g (markContending g s) := by
  have hview : (drawBackoff g (markContending g s)).transmit.view = .idle := by simpa using hv
  rw [grantItem, hview]
  rfl

/-- The grant on a BUSY view costs a deferral after the draw (R129, R131). -/
theorem grantItem_of_view_busy (g : Granted) {s : State} (hv : s.transmit.view = .busy) :
    grantItem g s = deferGranted g (drawBackoff g (markContending g s)) := by
  have hview : (drawBackoff g (markContending g s)).transmit.view = .busy := by simpa using hv
  rw [grantItem, hview]
  rfl

/-- Settles O24: the chosen item was READY, so it contends under its ready time; then the draw, and on a BUSY view the
deferral. -/
theorem grantDrawsBackoff : Obligations.GrantDrawsBackoff := by
  rintro s g _ hh hc hg rfl
  have hready := isReady_of_arbitrate s g hg
  refine ⟨(markContending g s).nextDraw (backoffRange (grantedUrgent (markContending g s) g)),
    drawBackoff g (markContending g s), grantItem g s, ?range, ?frame, ?relay, ?origin,
    exec_grant_of_arbitrate hh hc hg, grantItem_of_view_idle g, fun hv => ?busy⟩
  case range =>
    rw [grantedUrgent_markContending]
    exact nextDraw_backoff_lt _ _
  case frame => cases g <;> rfl
  case relay =>
    rintro i rfl
    obtain ⟨r, hr, hst⟩ := relay_contend_of_isReady hready
    rw [markContending_relay s i r hr, hst]
    exact ⟨rfl, r, hr, rfl⟩
  case origin =>
    rintro i rfl
    obtain ⟨o, ho, hst⟩ := origin_contend_of_isReady hready
    rw [markContending_origin s i o ho, hst]
    exact ⟨rfl, o, ho, rfl⟩
  case busy =>
    rw [grantItem_of_view_busy g hv]
    exact deferGranted_defers g _

/-! ## The completion of a backoff (R117, R133) -/

/-- A relay item whose backoff is over: suppressed at C, else handed over (R117). -/
theorem backoffCompletion_relay {s : State} {i u : Nat} {r : RelayItem} (hv : s.transmit.view = .idle)
    (hc : s.transmit.controller = .backoff (.relay i) 0 u) (hr : relayAt s i = some r) :
    backoffCompletion s =
      if s.cfg.threshold ≤ r.heard then setController .idle (suppressRelay i r s)
      else handCopyOver (.relay i) r.key r.identity r.hops r.slot s := by
  simp only [backoffCompletion, hc, hv, hr, if_true]

/-- An origin item whose backoff is over is handed over unchecked (R133). -/
theorem backoffCompletion_origin {s : State} {i u : Nat} {o : OriginItem} (hv : s.transmit.view = .idle)
    (hc : s.transmit.controller = .backoff (.origin i) 0 u) (ho : s.outbox[i]? = some o) :
    backoffCompletion s = handCopyOver (.origin i) o.key o.identity o.hops o.slot s := by
  simp only [backoffCompletion, hc, hv, ho, if_true]

/-- A suppression by the controller, seen as one effect (R117). -/
theorem setController_suppressRelay (i : Nat) (r : RelayItem) (s : State) :
    setController .idle (suppressRelay i r s) =
      relayGone i r
        { s with counters := s.counters.bump .relaysSuppressed, transmit := ⟨.idle, s.transmit.view⟩ } := by
  rw [suppressRelay_eq_relayGone]
  rfl

/-- A relay item handed over: SENDING, its header and body check fixed (R133, R137, R138). -/
theorem handCopyOver_relay {s : State} {i : Nat} {r : RelayItem} {since : Millis} (k : Key) (d : Identity)
    (hops slot : Nat) (hr : relayAt s i = some r) (hst : r.state = .contending since) :
    handCopyOver (.relay i) k d hops slot s =
      { s with
        relays := s.relays.set i (some { r with state := .sending since })
        transmit :=
          ⟨.sending (.relay i) (itemHeader s k d hops) (bodyCheck (identityBlock k d) (payloadAt s slot)) .pending,
            s.transmit.view⟩ } := by
  rw [handCopyOver, markSending_relay hr hst]
  rfl

/-- An origin item handed over: SENDING, its header and body check fixed (R133, R137, R138). -/
theorem handCopyOver_origin {s : State} {i : Nat} {o : OriginItem} {since : Millis} (k : Key) (d : Identity)
    (hops slot : Nat) (ho : s.outbox[i]? = some o) (hst : o.state = .contending since) :
    handCopyOver (.origin i) k d hops slot s =
      { s with
        outbox := s.outbox.set i { o with state := .sending since }
        transmit :=
          ⟨.sending (.origin i) (itemHeader s k d hops) (bodyCheck (identityBlock k d) (payloadAt s slot)) .pending,
            s.transmit.view⟩ } := by
  rw [handCopyOver, markSending_origin ho hst]
  rfl

theorem exec_backoffCompletion {s : State} (hh : s.station.held = false) :
    exec .backoffCompletion s = .next (settleAttn (backoffCompletion s)) :=
  congrArg Host.Outcome.next (live_running hh backoffCompletion)

/-- Settles O26: a relay item gets its last check; the copy handed over is that of the item as it stands. -/
theorem backoffCompletionSendsOrSuppresses : Obligations.BackoffCompletionSendsOrSuppresses := by
  intro s u hh hv header check
  rw [exec_backoffCompletion hh]
  refine ⟨fun i r hc hr => ?_, fun i o since hc ho hst => ?origin⟩
  · rw [backoffCompletion_relay hv hc hr]
    refine ⟨fun hheard => ?suppressed, fun hheard since hst => ?sent⟩
    case suppressed => rw [if_pos hheard, setController_suppressRelay, hv]
    case sent =>
      rw [if_neg (Nat.not_le.2 hheard), handCopyOver_relay _ _ _ _ hr hst, hv]
      rfl
  case origin =>
    rw [backoffCompletion_origin hv hc ho, handCopyOver_origin _ _ _ _ ho hst, hv]
    rfl

/-! ## The expiry of a hold-off (R115) -/

/-- RELAY_HOLD_OFF_EXPIRY of an item in HOLDING makes the first check at the item's deadline. -/
theorem exec_relayHoldOffExpiry_of_holding {s : State} {i : Nat} {r : RelayItem} (hh : s.station.held = false)
    (hr : relayAt s i = some r) (hst : r.state = .holding) :
    let s1 := runToMilli r.holdOffDeadline s
    exec (.relayHoldOffExpiry i) s = .next (settleAttn
      (if s.cfg.threshold ≤ r.heard then suppressRelay i r s1
        else updateRelay i (fun r => { r with state := .ready s1.station.milliTimer }) s1)) := by
  show Host.Outcome.next (live _ _) = _
  rw [live_running hh]
  simp only [relayHoldOffExpiry, hr, hst, if_true, runToMilli_cfg]

/-- Settles O38: time runs to the deadline, and the item it finds is suppressed or READY. -/
theorem relayHoldOffExpiryChecks : Obligations.RelayHoldOffExpiryChecks := by
  intro s i r hh hr hst s1
  have hr1 : relayAt s1 i = some r := (runToMilli_relayAt s r.holdOffDeadline i).trans hr
  have hrelays : s1.relays = s.relays := runToMilli_relays s r.holdOffDeadline
  have hcounters : s1.counters = s.counters := runToMilli_counters s r.holdOffDeadline
  rw [exec_relayHoldOffExpiry_of_holding hh hr hst]
  refine ⟨fun hheard => ?suppressed, fun hheard => ?ready⟩
  case suppressed => rw [if_pos hheard, suppressRelay_eq_relayGone, hcounters]
  case ready => rw [if_neg (Nat.not_le.2 hheard), updateRelay_of_relayAt _ hr1, hrelays]

end Sys2Proof.Machine
end

section
/-! PROOFS. The grant order of the arbiter; the end of a slot (O23, O25). -/

namespace Sys2Proof.Machine

/-! ## The first of a list under a rank -/

/-- The first of a list under the order of a rank has the lowest rank. -/
theorem rank_le_of_firstBy {α β : Type} [LinearOrder β] {before : α → α → Bool} {rank : α → β}
    (hbefore : ∀ x y, before x y = true ↔ rank x < rank y) :
    ∀ {l : List α} {a : α}, firstBy before l = some a → ∀ x ∈ l, rank a ≤ rank x
  | [], _, h, _, _ => by cases h
  | y :: rest, a, h, x, hx => by
    rw [firstBy] at h
    split at h
    next hnone =>
      cases h
      cases rest with
      | nil => rw [List.mem_singleton.1 hx]
      | cons z l =>
        obtain ⟨w, hw⟩ := firstBy_of_ne_nil before (z :: l) (List.cons_ne_nil z l)
        cases hnone.symm.trans hw
    next b hb =>
      have ih := rank_le_of_firstBy hbefore hb
      split at h
      next hlt =>
        cases h
        rcases List.mem_cons.1 hx with rfl | hx
        · exact ((hbefore _ _).1 hlt).le
        · exact ih x hx
      next hnot =>
        cases h
        have hle : rank y ≤ rank b := not_lt.1 fun hlt => hnot ((hbefore _ _).2 hlt)
        rcases List.mem_cons.1 hx with rfl | hx
        · exact le_rfl
        · exact hle.trans (ih x hx)

/-! ## The grant order as a rank (R128) -/

/-- The grant order as one lexicographic rank: urgent, then waiting longer, then an origin item, then the index. -/
def Candidate.rank (c : Candidate) : Bool ×ₗ ℕᵒᵈ ×ₗ Bool ×ₗ ℕ :=
  toLex (!c.urgent, toLex (OrderDual.toDual c.waited, toLex c.item.place))

/-- The grant order compares ranks, so it is a strict order. -/
theorem before_iff_rank_lt (a b : Candidate) : a.before b = true ↔ a.rank < b.rank := by
  have hurgent : (!a.urgent) < (!b.urgent) ↔ a.urgent ≠ b.urgent ∧ a.urgent = true := by
    cases a.urgent <;> cases b.urgent <;> decide
  have hplace : a.item.place.1 < b.item.place.1 ↔ a.item.place.1 ≠ b.item.place.1 ∧ b.item.place.1 = true := by
    cases a.item.place.1 <;> cases b.item.place.1 <;> decide
  simp only [Candidate.rank, Prod.Lex.toLex_lt_toLex, hurgent, hplace, OrderDual.toDual_lt_toDual,
    EmbeddingLike.apply_eq_iff_eq, Bool.not_inj_iff]
  unfold Candidate.before
  split_ifs with h1 h2 h3
  · simp [h1]
  · simp [not_not.1 h1, h2]
  · simp [not_not.1 h1, not_not.1 h2, h3]
  · simp [not_not.1 h1, not_not.1 h2, not_not.1 h3]

/-- No two items stand at the same place in the grant order. -/
theorem item_eq_of_rank_eq {a b : Candidate} (h : a.rank = b.rank) : a.item = b.item := by
  simp only [Candidate.rank, EmbeddingLike.apply_eq_iff_eq, Prod.mk.injEq] at h
  obtain ⟨-, -, hplace⟩ := h
  revert hplace
  cases a.item <;> cases b.item <;> simp [Granted.place]

/-! ## The candidates in the statements' terms (R127, R128) -/

/-- An item as the arbiter compares it, read from its owner. -/
def candidateOf (s : State) (g : Granted) : Candidate :=
  ⟨g, grantedUrgent s g, distanceBehind s.station.milliTimer (readyTime s g)⟩

theorem eq_candidateOf_of_mem {s : State} {c : Candidate} (hc : c ∈ candidates s) : c = candidateOf s c.item := by
  simp only [candidates, List.mem_append, List.mem_filterMap, List.mem_mapIdx, id] at hc
  obtain ⟨x, ⟨i, hi, hx⟩, rfl⟩ | ⟨x, ⟨i, hi, hx⟩, rfl⟩ := hc
  · unfold originCandidate at hx
    split at hx
    next t ht =>
      cases hx
      simp [candidateOf, grantedUrgent, readyTime, List.getElem?_eq_getElem hi, ht, originReadySince]
    next => cases hx
  · unfold relayCandidate at hx
    split at hx
    next r hr =>
      split at hx
      next t ht =>
        cases hx
        have hrelay : relayAt s i = some r := relayAt_of_relays (by rw [List.getElem?_eq_getElem hi, hr])
        simp [candidateOf, grantedUrgent, readyTime, hrelay, ht, relayReadySince]
      next => cases hx
    next => cases hx

theorem candidateOf_mem {s : State} {g : Granted} (h : isReady s g) : candidateOf s g ∈ candidates s := by
  obtain ⟨c, hc, rfl⟩ := (mem_candidates s g).2 h
  exact eq_candidateOf_of_mem hc ▸ hc

/-- The grant order of the statements is that of the arbiter. -/
theorem grantBefore_iff_rank_lt (s : State) (a b : Granted) :
    grantBefore s a b ↔ (candidateOf s a).rank < (candidateOf s b).rank := by
  rw [← before_iff_rank_lt]
  unfold grantBefore Candidate.before candidateOf distanceBehind
  dsimp only
  split_ifs with h1 h2 h3
  · exact Iff.rfl
  · exact decide_eq_true_iff.symm
  · cases a <;> cases b <;> simp [Granted.place] at h3 ⊢
  · rcases a with i | i <;> rcases b with j | j
    · exact decide_eq_true_iff.symm
    · exact (h3 nofun).elim
    · exact (h3 nofun).elim
    · exact decide_eq_true_iff.symm

/-- What the arbiter grants comes before every other READY item. -/
theorem grantBefore_of_arbitrate {s : State} {g o : Granted} (hg : arbitrate s = some g) (ho : isReady s o)
    (hne : o ≠ g) : grantBefore s g o := by
  obtain ⟨c, hc, rfl⟩ := Option.map_eq_some_iff.1 hg
  have hle := rank_le_of_firstBy before_iff_rank_lt hc _ (candidateOf_mem ho)
  rw [grantBefore_iff_rank_lt, ← eq_candidateOf_of_mem (firstBy_mem _ _ _ hc)]
  exact lt_of_le_of_ne hle fun heq => hne (item_eq_of_rank_eq heq).symm

/-- Settles O23: the arbiter's choice is first in the grant order, and a strict order has only one first. -/
theorem arbiterFollowsGrantOrder : Obligations.ArbiterFollowsGrantOrder := by
  intro s
  have hsome (g : Granted) (hg : isReady s g) : ∃ a, arbitrate s = some a :=
    Option.isSome_iff_exists.1 ((arbitrate_isSome_iff s).2 ⟨g, hg⟩)
  refine ⟨fun g hg hfirst => ?unique, fun ⟨g, hg⟩ => ?first, fun hnone => ?empty⟩
  case unique =>
    obtain ⟨a, ha⟩ := hsome g hg
    by_cases hag : a = g
    · rw [ha, hag]
    · have hga := (grantBefore_iff_rank_lt s g a).1 (hfirst a (isReady_of_arbitrate s a ha) hag)
      have hag' := (grantBefore_iff_rank_lt s a g).1 (grantBefore_of_arbitrate ha hg (Ne.symm hag))
      exact absurd hga (lt_asymm hag')
  case first =>
    obtain ⟨a, ha⟩ := hsome g hg
    exact ⟨a, isReady_of_arbitrate s a ha, fun _ => grantBefore_of_arbitrate ha, ha⟩
  case empty =>
    rw [← Option.not_isSome_iff_eq_none, arbitrate_isSome_iff]
    exact not_exists.2 hnone

/-! ## The end of a slot (R130) -/

/-- Settles O25: time runs to the slot's 64th tick, and only the controller changes then. -/
theorem slotEndCountsDown : Obligations.SlotEndCountsDown := by
  intro s g c u hh hv hc s1
  have hview : s1.transmit.view = .idle := (runToTick_transmit_view s _).trans hv
  have hslot : slotEnd s = { s1 with transmit := ⟨.backoff g c 0, s1.transmit.view⟩ } := by
    simp only [slotEnd, hc, hv, if_true]
    rfl
  show Host.Outcome.next (live slotEnd s) = _
  rw [live_running hh, hslot, hview]

end Sys2Proof.Machine
end

section
/-! PROOFS. A command whose event cannot happen moves its own pin and nothing else (O4). -/

namespace Sys2Proof.Machine

/-! ## Events that cannot happen: no effect, block by block (log 3) -/

section

variable {s : State}

/-! ### The line -/

theorem risingEdge_of_not_enabled (h : ¬ Enabled .risingEdge s) : risingEdge s = s := if_neg h

theorem fallingEdge_of_not_enabled (n : Nat) (h : s.line.phase ≠ .lit) : fallingEdge n s = s := if_neg h

theorem silence_of_not_enabled (h : ¬ Enabled .silence s) : silence s = s := if_neg h

theorem blindingEnd_of_not_enabled (h : ¬ Enabled .blindingEnd s) : blindingEnd s = s := by
  unfold blindingEnd
  split
  next d hphase hdeadline => exact absurd ⟨hphase, by simp [hdeadline]⟩ h
  next => rfl

/-! ### The Transmit Controller -/

theorem slotEnd_of_not_enabled (h : ¬ Enabled .slotEnd s) : slotEnd s = s := by
  unfold slotEnd
  split
  next g c t hc => exact if_neg fun hv => h ⟨hv, g, c, t, hc⟩
  next => rfl

theorem backoffCompletion_of_not_enabled (h : ¬ Enabled .backoffCompletion s) : backoffCompletion s = s := by
  unfold backoffCompletion
  split
  next g t hc => exact if_neg fun hv => h ⟨hv, g, t, hc⟩
  next => rfl

theorem handOver_of_not_enabled (h : ¬ Enabled .handOver s) : handOver s = s := by
  unfold handOver
  split
  next g header b hc => exact absurd ⟨g, header, b, hc⟩ h
  next => rfl

theorem transmissionComplete_of_not_enabled (h : ¬ Enabled .transmissionComplete s) : transmissionComplete s = s := by
  unfold transmissionComplete
  split
  next g header b e t hc => exact absurd ⟨g, header, b, e, t, hc⟩ h
  next => rfl

theorem grant_of_not_enabled (h : ¬ Enabled .grant s) : grant s = s := by
  unfold grant
  split
  next hc =>
    split
    next g hg => exact absurd ⟨hc, g, isReady_of_arbitrate s g hg⟩ h
    next => rfl
  next => rfl

/-! ### The Decoder -/

theorem decoderTake_of_not_enabled (h : ¬ Enabled .decoderTake s) : decoderTake s = s := by
  unfold decoderTake
  split
  next i rest hd hq =>
    split
    next => rfl
    next e he => exact absurd ⟨hd, i, rest, e, hq, he⟩ h
  next => rfl

theorem decodeCompletion_of_not_enabled (h : ¬ Enabled .decodeCompletion s) : decodeCompletion s = s := by
  unfold decodeCompletion
  rw [not_not.1 h]

/-! ### Deadlines -/

theorem entryDeadline_of_not_enabled {i : Nat} (h : ¬ Enabled (.entryDeadline i) s) : entryDeadline i s = s := by
  unfold entryDeadline
  split
  next => rfl
  next e he => exact if_pos (eq_true_of_ne_false fun hf => h ⟨e, he, hf⟩)

theorem relayHoldOffExpiry_of_not_enabled {i : Nat} (h : ¬ Enabled (.relayHoldOffExpiry i) s) :
    relayHoldOffExpiry i s = s := by
  unfold relayHoldOffExpiry
  split
  next => rfl
  next r hr => exact if_neg fun hst => h ⟨r, hr, hst⟩

theorem originHoldOffExpiry_of_not_enabled {i : Nat} (h : ¬ Enabled (.originHoldOffExpiry i) s) :
    originHoldOffExpiry i s = s := by
  unfold originHoldOffExpiry
  split
  next => rfl
  next o ho =>
    split
    next d hst => exact absurd ⟨o, d, ho, hst⟩ h
    next => rfl

theorem echoDeadline_of_not_enabled {i : Nat} (h : ¬ Enabled (.echoDeadline i) s) : echoDeadline i s = s := by
  unfold echoDeadline
  split
  next => rfl
  next o ho =>
    split
    next d hst => exact absurd ⟨o, d, ho, hst⟩ h
    next => rfl

theorem listenExpiry_of_not_enabled (h : ¬ Enabled .listenExpiry s) : listenExpiry s = s := by
  unfold listenExpiry
  split
  next d hst hd => exact absurd ⟨hst, by simp [hd]⟩ h
  next => rfl

/-! ### The host port -/

/-- What has been received is a proper beginning of the request when some of it is still to come (R173). -/
theorem exists_rest_of_prefix {received bytes : List Byte} (hpre : received.isPrefixOf bytes = true)
    (hlt : received.length < bytes.length) : ∃ rest, rest ≠ [] ∧ bytes = received ++ rest := by
  obtain ⟨rest, rfl⟩ := List.isPrefixOf_iff_prefix.1 hpre
  refine ⟨rest, ?_, rfl⟩
  rintro rfl
  simp at hlt

theorem hostRequest_of_not_completes {r : Request} (h : ¬ Completes r s) : hostRequest r s = s :=
  if_neg fun ⟨hphase, hcomplete, hparse, hpre, hlt⟩ =>
    h ⟨hphase, hcomplete, hparse, exists_rest_of_prefix hpre hlt⟩

theorem clockToEnd_of_no_response {kind : Commit}
    (h : ¬ (s.port.phase = .response ∧ ∃ r, s.port.response = some r ∧ r.commit = kind)) : clockToEnd kind s = s := by
  unfold clockToEnd
  split
  next r hphase hr => exact if_neg fun hkind => h ⟨hphase, r, hr, hkind⟩
  next => rfl

end

/-! ## The command as a whole -/

/-- The state with only the level of a command's own pin moved (log 3). -/
def withOwnPin (c : Instr) (s : State) : State :=
  { s with pins := edgePins c s.pins, port := { s.port with csnSeen := edgeSeen c s.port.csnSeen } }

/-- A live effect that changes nothing leaves the pin's move and the level of ATTN. -/
theorem next_live_of_no_effect {s : State} {f : State → State} (hh : s.station.held = false) (hf : f s = s) :
    Host.Outcome.next (live f s) = (.next (settleAttn s) : Host.Outcome State Fault Refusal) := by
  rw [live_running hh, hf]

/-- Settles O4: the three commands of an edge move their pin first; what then runs, for every command, finds its
condition unmet. -/
theorem unmetConditionsDoNothing : Obligations.UnmetConditionsDoNothing := by
  intro c s hh h
  show exec c s = .next (settleAttn (withOwnPin c s))
  cases c with
  | powerOn | rstnReset | rstnRelease | csnRise | byteComplete => exact absurd trivial h
  | risingEdge => exact next_live_of_no_effect (s := setDemodIn true s) hh (risingEdge_of_not_enabled h)
  | fallingEdge n => exact next_live_of_no_effect (s := setDemodIn false s) hh (fallingEdge_of_not_enabled _ h)
  | csnFall =>
    refine next_live_of_no_effect (s := setCsn false s) hh ?_
    rw [if_neg (show ¬ s.port.csnSeen = true from h)]
    rfl
  | silence => exact next_live_of_no_effect hh (silence_of_not_enabled h)
  | blindingEnd => exact next_live_of_no_effect hh (blindingEnd_of_not_enabled h)
  | slotEnd => exact next_live_of_no_effect hh (slotEnd_of_not_enabled h)
  | backoffCompletion => exact next_live_of_no_effect hh (backoffCompletion_of_not_enabled h)
  | handOver => exact next_live_of_no_effect hh (handOver_of_not_enabled h)
  | transmissionComplete => exact next_live_of_no_effect hh (transmissionComplete_of_not_enabled h)
  | grant => exact next_live_of_no_effect hh (grant_of_not_enabled h)
  | decoderTake => exact next_live_of_no_effect hh (decoderTake_of_not_enabled h)
  | decodeCompletion => exact next_live_of_no_effect hh (decodeCompletion_of_not_enabled h)
  | entryDeadline => exact next_live_of_no_effect hh (entryDeadline_of_not_enabled h)
  | relayHoldOffExpiry => exact next_live_of_no_effect hh (relayHoldOffExpiry_of_not_enabled h)
  | originHoldOffExpiry => exact next_live_of_no_effect hh (originHoldOffExpiry_of_not_enabled h)
  | echoDeadline => exact next_live_of_no_effect hh (echoDeadline_of_not_enabled h)
  | listenExpiry => exact next_live_of_no_effect hh (listenExpiry_of_not_enabled h)
  | configure | submit | collectMessage | collectReport | readStatus | readCounters | clearEvents | restart
  | malformedRequest => exact next_live_of_no_effect hh (hostRequest_of_not_completes h)
  | collectMessageFinalByte | collectReportFinalByte | readCountersFinalByte =>
    exact next_live_of_no_effect hh (clockToEnd_of_no_response h)

end Sys2Proof.Machine
end

section
/-! PROOFS. The three deadlines of originated messages: the hold-off expiry, the echo deadline, the listen expiry (O39 to
O41). -/

namespace Sys2Proof.Machine

/-- An origin item that stands in the Outbox is set to its changed value. -/
theorem updateOrigin_of_outbox {s : State} {i : Nat} {o : OriginItem} (f : OriginItem → OriginItem)
    (ho : s.outbox[i]? = some o) : updateOrigin i f s = { s with outbox := s.outbox.set i (f o) } := by
  rw [updateOrigin, modify_eq_set _ _ _ ho]

/-! ## The hold-off expiry (R151) -/

/-- An item in HOLDING is READY once time has run to its deadline. -/
theorem originHoldOffExpiry_of_holding {s : State} {i : Nat} {o : OriginItem} {d : Millis}
    (ho : s.outbox[i]? = some o) (hst : o.state = .holding d) :
    originHoldOffExpiry i s =
      updateOrigin i (fun o => { o with state := .ready (runToMilli d s).station.milliTimer }) (runToMilli d s) := by
  simp only [originHoldOffExpiry, ho, hst]

/-- Settles O39: time runs to the deadline, and leaves the Outbox with the item that becomes READY. -/
theorem originHoldOffExpiryReadies : Obligations.OriginHoldOffExpiryReadies := by
  intro s i o d hh ho hst s1
  have houtbox : s1.outbox = s.outbox := runToMilli_outbox s d
  have ho1 : s1.outbox[i]? = some o := by rw [houtbox, ho]
  show Host.Outcome.next (live (originHoldOffExpiry i) s) = _
  rw [live_running hh, originHoldOffExpiry_of_holding ho hst, updateOrigin_of_outbox _ ho1, houtbox]

/-! ## The echo deadline (R153) -/

/-- An item in ECHO_WAIT gets its report once time has run to its deadline. -/
theorem echoDeadline_of_echoWait {s : State} {i : Nat} {o : OriginItem} {d : Millis}
    (ho : s.outbox[i]? = some o) (hst : o.state = .echoWait d) : echoDeadline i s = makeReport i (runToMilli d s) := by
  simp only [echoDeadline, ho, hst]

/-- Settles O40: time leaves the item in the Outbox, and a report made is filed or waits for room. -/
theorem echoDeadlineReports : Obligations.EchoDeadlineReports := by
  intro s i o d hh ho hst
  have ho1 : (runToMilli d s).outbox[i]? = some o := by rw [runToMilli_outbox, ho]
  show Host.Outcome.next (live (echoDeadline i) s) = _
  rw [live_running hh, echoDeadline_of_echoWait ho hst, makeReport_eq_reported _ _ ho1]

/-! ## The listen expiry (R148, R162) -/

/-- A LISTENING station is RUNNING and releases its HELD items once time has run to its listen deadline. -/
theorem listenExpiry_of_listening {s : State} {d : Millis} (hst : s.station.state = .listening)
    (hd : s.station.listenDeadline = some d) :
    let s1 := runToMilli d s
    listenExpiry s =
      { s1 with
        station := { s1.station with state := .running, listenDeadline := none }
        outbox := s1.outbox.map fun o => o.release s1.station.milliTimer } := by
  simp only [listenExpiry, hst, hd]

/-- Settles O41: time leaves the Outbox as it is, and each item is released if HELD. -/
theorem listenExpiryStartsRunning : Obligations.ListenExpiryStartsRunning := by
  intro s d hh hst hd s1
  have houtbox : s1.outbox = s.outbox := runToMilli_outbox s d
  show Host.Outcome.next (live listenExpiry s) = _
  rw [live_running hh, listenExpiry_of_listening hst hd, houtbox]
  rfl

end Sys2Proof.Machine
end

section
/-! PROOFS. Power-on, the hold of RSTn and its release; READ_STATUS, READ_COUNTERS and CLEAR_EVENTS (O7, O8, O48). -/

namespace Sys2Proof.Machine

/-! ## Power-on and RSTn (R170, R171) -/

/-- A falling RSTn on a part not yet held is a reset with the pin low (R170). -/
theorem rstnReset_of_running {s : State} (hh : s.station.held = false) :
    rstnReset s = resetPart { s with pins := { s.pins with rstn := false } } := by
  rw [rstnReset, hh]
  rfl

/-- A falling RSTn on a part held already moves its pin (log 9). -/
theorem rstnReset_of_held {s : State} (hh : s.station.held = true) :
    rstnReset s = { s with pins := { s.pins with rstn := false } } := by
  rw [rstnReset, hh]
  rfl

/-- The end of the hold: Station Control and the Host Port start, every other block is as the reset left it (R170,
R171). -/
theorem rstnRelease_of_held {s : State} (hh : s.station.held = true) :
    rstnRelease s =
      { s with
        pins := { s.pins with rstn := true }
        station := { s.station with held := false, milliTimer := 0, milliPhase := 0 }
        port := Port.reset s.pins } := by
  rw [rstnRelease, hh]
  rfl

/-- A rising RSTn on a part not held moves its pin (log 9). -/
theorem rstnRelease_of_running {s : State} (hh : s.station.held = false) :
    rstnRelease s = { s with pins := { s.pins with rstn := true } } := by
  rw [rstnRelease, hh]
  rfl

/-- The commands that reset the part, as one: every block takes its reset state under the pins they leave (R170). -/
theorem exec_of_resetting {c : Instr} {s : State} (h : c = .powerOn ∨ (c = .rstnReset ∧ s.station.held = false)) :
    exec c s = .next (resetPart { s with pins := edgePins c s.pins }) := by
  obtain rfl | ⟨rfl, hh⟩ := h
  · rfl
  · exact congrArg Host.Outcome.next (rstnReset_of_running hh)

/-- Settles O7: both commands leave the part reset, and the reset has the values of the rules in every block. -/
theorem resetClearsEveryBlock : Obligations.ResetClearsEveryBlock := by
  intro c s h
  refine ⟨_, exec_of_resetting h, rfl, rfl, rfl, ?station, ?counters, ?blocks⟩
  case station => exact ⟨_, rfl⟩
  case counters => exact get_zero
  case blocks => and_intros <;> rfl

/-- A command on a part that RSTn holds, but for the two that act on it, moves its own pin (log 9): the three edges
move it before the hold stops their effect, RSTN_RESET finds the part held already, and the effects of all others are
stopped. -/
theorem exec_of_held {c : Instr} {s : State} (hh : s.station.held = true) (hon : c ≠ .powerOn)
    (hrelease : c ≠ .rstnRelease) : exec c s = .next (withOwnPin c s) := by
  cases c with
  | powerOn => exact absurd rfl hon
  | rstnRelease => exact absurd rfl hrelease
  | rstnReset => exact congrArg Host.Outcome.next (rstnReset_of_held hh)
  | risingEdge => exact congrArg Host.Outcome.next (live_held (s := setDemodIn true s) hh _)
  | fallingEdge n => exact congrArg Host.Outcome.next (live_held (s := setDemodIn false s) hh _)
  | csnFall => exact congrArg Host.Outcome.next (live_held (s := setCsn false s) hh _)
  | csnRise => exact congrArg Host.Outcome.next (live_held (s := setCsn true s) hh _)
  | silence | blindingEnd | slotEnd | backoffCompletion | handOver | transmissionComplete | grant | decoderTake
  | decodeCompletion | entryDeadline | relayHoldOffExpiry | originHoldOffExpiry | echoDeadline | listenExpiry
  | configure | submit | collectMessage | collectReport | readStatus | readCounters | clearEvents | restart
  | malformedRequest | collectMessageFinalByte | collectReportFinalByte | readCountersFinalByte | byteComplete =>
    exact congrArg Host.Outcome.next (live_held hh _)

/-- Settles O8: the hold stops every command but two, and its release starts Station Control and the Host Port. -/
theorem holdAndRelease : Obligations.HoldAndRelease := by
  intro s
  refine ⟨fun c hh hon hrelease => exec_of_held hh hon hrelease, fun hh => ?release, fun hh => ?running⟩
  case release =>
    exact ⟨_, congrArg Host.Outcome.next (rstnRelease_of_held hh), rfl, rfl, rfl, rfl, rfl, rfl, rfl, rfl⟩
  case running => exact congrArg Host.Outcome.next (rstnRelease_of_running hh)

/-! ## The reads and CLEAR_EVENTS at their take (R167, R168, R175, R177) -/

theorem takeReadStatus_eq (s : State) : takeReadStatus s = answered .ok (statusRecord s) .nothing s := by
  rw [statusRecord_eq]
  rfl

/-- Clear option 0: the counters are read, and nothing follows (R167). -/
theorem takeReadCounters_zero (s : State) :
    takeReadCounters 0 s = answered .ok (countersRecord s.counters) .nothing s := by
  rw [countersRecord_eq]
  rfl

/-- Clear option 1: the counters are read, and the final byte is to clear them (R167). -/
theorem takeReadCounters_one (s : State) :
    takeReadCounters 1 s = answered .ok (countersRecord s.counters) .clearCounters s := by
  rw [countersRecord_eq]
  rfl

/-- No other clear option is valid (R175, R181). -/
theorem takeReadCounters_of_two_le {b : Byte} (h : 2 ≤ b.toNat) (s : State) :
    takeReadCounters b s = answered .badParameter [] .nothing s := by
  have hne0 : b ≠ 0 := by
    rintro rfl
    exact absurd h (by decide)
  have hne1 : b ≠ 1 := by
    rintro rfl
    exact absurd h (by decide)
  rw [takeReadCounters, if_neg hne0, if_neg hne1]
  rfl

/-- A mask within the four flags clears those it names (R168). -/
theorem takeClearEvents_of_lt {m : Byte} (h : m.toNat < 16) (s : State) :
    takeClearEvents m s = answered .ok [] .nothing { s with flags := s.flags.clear m } :=
  if_pos ((mask_within_four m).2 h)

/-- A mask with a bit beyond the four flags is invalid (R175, R181). -/
theorem takeClearEvents_of_le {m : Byte} (h : 16 ≤ m.toNat) (s : State) :
    takeClearEvents m s = answered .badParameter [] .nothing s :=
  if_neg fun hmask => absurd ((mask_within_four m).1 hmask) (Nat.not_lt.2 h)

/-- Settles O48: each request completed is taken, and its take answers as its parameter and the station state say. -/
theorem readsAndClears : Obligations.ReadsAndClears := by
  intro s hh
  refine ⟨fun hcomplete => ?status, fun b hcomplete => ?counters, fun m hcomplete => ?events⟩
  case status =>
    intro s1
    have hexec : exec .readStatus s = .next (settleAttn (takeReadStatus s1)) :=
      congrArg Host.Outcome.next (live_hostRequest_of_completes hh hcomplete)
    rw [hexec, takeReadStatus_eq]
    rfl
  case counters =>
    intro s1
    have hexec : exec (.readCounters b) s = .next (settleAttn (takeReadCounters b s1)) :=
      congrArg Host.Outcome.next (live_hostRequest_of_completes hh hcomplete)
    rw [hexec]
    refine ⟨fun hb => ?_, fun hb => ?_, fun hb => ?_⟩
    · rw [hb, takeReadCounters_zero]
      rfl
    · rw [hb, takeReadCounters_one]
      rfl
    · rw [takeReadCounters_of_two_le hb]
  case events =>
    intro s1
    have hexec : exec (.clearEvents m) s = .next (settleAttn (whenConfigured (takeClearEvents m) s1)) :=
      congrArg Host.Outcome.next (live_hostRequest_of_completes hh hcomplete)
    rw [hexec]
    refine ⟨fun hu => ?_, fun hc hm => ?_, fun hc hm => ?_⟩
    · rw [whenConfigured_of_unconfigured (s := s1) _ hu]
    · rw [whenConfigured_of_configured (s := s1) _ hc, takeClearEvents_of_le hm]
    · rw [whenConfigured_of_configured (s := s1) _ hc, takeClearEvents_of_lt hm]
      rfl

end Sys2Proof.Machine
end

section
/-! PROOFS. ATTN at its level after every step: events leave the hold of RSTn alone, and every live effect brings ATTN
to its level (O57). -/

namespace Sys2Proof.Machine

/-! ## The hold over the commands that let time run or take a request

The other commands leave all of Station Control (Laws/Frames.lean). -/

section
variable (s : State)

@[simp] theorem risingEdge_station_held : (risingEdge s).station.held = s.station.held := by
  unfold risingEdge; split <;> simp

@[simp] theorem fallingEdge_station_held (n : Nat) : (fallingEdge n s).station.held = s.station.held := by
  unfold fallingEdge; split <;> simp

@[simp] theorem silence_station_held : (silence s).station.held = s.station.held := by
  unfold silence
  split
  · dsimp only; split <;> simp
  · rfl

@[simp] theorem blindingEnd_station_held : (blindingEnd s).station.held = s.station.held := by
  unfold blindingEnd; split <;> simp

@[simp] theorem slotEnd_station_held : (slotEnd s).station.held = s.station.held := by
  unfold slotEnd
  split
  · split <;> simp
  · rfl

@[simp] theorem transmissionComplete_station_held : (transmissionComplete s).station.held = s.station.held := by
  unfold transmissionComplete; split <;> simp

@[simp] theorem decodeCompletion_station_held : (decodeCompletion s).station.held = s.station.held := by
  unfold decodeCompletion
  split
  · rfl
  · dsimp only; split <;> simp

@[simp] theorem entryDeadline_station_held (i : Nat) : (entryDeadline i s).station.held = s.station.held := by
  unfold entryDeadline
  split
  · rfl
  · split
    · rfl
    · dsimp only; split <;> simp

@[simp] theorem relayHoldOffExpiry_station_held (i : Nat) :
    (relayHoldOffExpiry i s).station.held = s.station.held := by
  unfold relayHoldOffExpiry
  split
  · rfl
  · split
    · dsimp only; split <;> simp
    · rfl

@[simp] theorem originHoldOffExpiry_station_held (i : Nat) :
    (originHoldOffExpiry i s).station.held = s.station.held := by
  unfold originHoldOffExpiry
  split
  · rfl
  · split <;> simp

@[simp] theorem echoDeadline_station_held (i : Nat) : (echoDeadline i s).station.held = s.station.held := by
  unfold echoDeadline
  split
  · rfl
  · split <;> simp

@[simp] theorem listenExpiry_station_held : (listenExpiry s).station.held = s.station.held := by
  unfold listenExpiry
  split
  · exact runToMilli_station_held s _
  · rfl

@[simp] theorem takeConfigure_station_held (p : ConfigureParams) :
    (takeConfigure p s).station.held = s.station.held := by
  unfold takeConfigure
  split
  · rfl
  · split <;> rfl

@[simp] theorem takeSubmit_station_held (p : SubmitParams) : (takeSubmit p s).station.held = s.station.held := by
  unfold takeSubmit
  split
  · rfl
  · split <;> rfl

/-- A take that leaves the hold leaves it too where an UNCONFIGURED station refuses the request (R175). -/
theorem whenConfigured_station_held {take : State → State} (htake : (take s).station.held = s.station.held) :
    (whenConfigured take s).station.held = s.station.held := by
  unfold whenConfigured
  split
  · rfl
  · exact htake

/-- No request reaches the hold: CONFIGURE, SUBMIT and RESTART change other fields of Station Control. -/
@[simp] theorem takeRequest_station_held (r : Request) : (takeRequest r s).station.held = s.station.held := by
  cases r with
  | configure p => exact takeConfigure_station_held s p
  | submit p => exact whenConfigured_station_held s (takeSubmit_station_held s p)
  | collectMessage => exact whenConfigured_station_held s (by rw [takeCollectMessage_station])
  | collectReport => exact whenConfigured_station_held s (by rw [takeCollectReport_station])
  | readStatus => rfl
  | readCounters c => rw [takeRequest, takeReadCounters_station]
  | clearEvents m => exact whenConfigured_station_held s (by rw [takeClearEvents_station])
  | restart => exact whenConfigured_station_held s rfl
  | malformed _ => rfl

@[simp] theorem hostRequest_station_held (r : Request) : (hostRequest r s).station.held = s.station.held := by
  unfold hostRequest
  split
  · exact takeRequest_station_held _ r
  · rfl

@[simp] theorem byteComplete_station_held (b : Byte) : (byteComplete b s).station.held = s.station.held := by
  unfold byteComplete
  split
  · rfl
  · unfold requestByte
    dsimp only
    split
    · exact takeRequest_station_held _ _
    · rfl
  · rw [responseByte_station]
  · rfl

end

/-! ## ATTN over the commands (R178) -/

namespace State.AttnFollows
variable {s : State} (h : s.AttnFollows)
include h

/-- ATTN, its sources and the hold are all that the property speaks of. -/
theorem congr {t : State} (hattn : t.port.attn = s.port.attn) (hlevel : attnLevel t = attnLevel s)
    (hheld : t.station.held = s.station.held) : t.AttnFollows where
  level := by rw [hattn, hlevel, h.level]
  held ht := by rw [hlevel, h.held (hheld ▸ ht)]

/-- A live effect that leaves the hold ends with ATTN at its level; a held part does not change. -/
theorem live {f : State → State} (hf : (f s).station.held = s.station.held) : (Machine.live f s).AttnFollows := by
  cases hh : s.station.held with
  | true =>
    rw [live_held hh]
    exact h
  | false =>
    rw [live_running hh]
    have hrunning : (settleAttn (f s)).station.held = false := hf.trans hh
    exact ⟨rfl, fun ht => absurd ht (by rw [hrunning]; decide)⟩

theorem setDemodIn (level : Bool) : (setDemodIn level s).AttnFollows := h.congr rfl rfl rfl

theorem setCsn (level : Bool) : (setCsn level s).AttnFollows := h.congr rfl rfl rfl

omit h in
/-- A reset part shows no ATTN: it has no message, no report and no flag (R170). -/
theorem resetPart (s : State) : (resetPart s).AttnFollows := ⟨rfl, fun _ => rfl⟩

theorem rstnReset : (rstnReset s).AttnFollows := by
  unfold Machine.rstnReset
  split
  · exact h.congr rfl rfl rfl
  · exact resetPart _

/-- The port starts with ATTN low, which is its level as long as the part was held (R171). -/
theorem rstnRelease : (rstnRelease s).AttnFollows := by
  cases hh : s.station.held with
  | true =>
    rw [rstnRelease_of_held hh]
    exact ⟨(h.held hh).symm, fun ht => nomatch ht⟩
  | false =>
    rw [rstnRelease_of_running hh]
    exact h.congr rfl rfl rfl

end State.AttnFollows

theorem attnFollows_exec (c : Instr) (s t : State) (h : s.AttnFollows) (ht : exec c s = .next t) : t.AttnFollows := by
  cases c with
  | powerOn => cases ht; exact .resetPart s
  | rstnReset => cases ht; exact h.rstnReset
  | rstnRelease => cases ht; exact h.rstnRelease
  | risingEdge => cases ht; exact (h.setDemodIn true).live (risingEdge_station_held _)
  | fallingEdge n => cases ht; exact (h.setDemodIn false).live (fallingEdge_station_held _ _)
  | csnFall =>
    cases ht
    refine (h.setCsn false).live ?_
    split <;> rfl
  | csnRise => cases ht; exact (h.setCsn true).live rfl
  | configure _ | submit _ | collectMessage | collectReport | readStatus | readCounters _ | clearEvents _ | restart
  | malformedRequest _ => cases ht; exact h.live (hostRequest_station_held s _)
  | byteComplete b => cases ht; exact h.live (byteComplete_station_held s b)
  | collectMessageFinalByte | collectReportFinalByte | readCountersFinalByte =>
    cases ht; exact h.live (by rw [clockToEnd_station])
  | silence | blindingEnd | slotEnd | backoffCompletion | handOver | transmissionComplete | grant | decoderTake
  | decodeCompletion | entryDeadline _ | relayHoldOffExpiry _ | originHoldOffExpiry _ | echoDeadline _ | listenExpiry =>
    cases ht; exact h.live (by simp)

/-! ## ATTN over a REFCLK period -/

theorem Port.sample_attn (p : Port) (pins : Pins) : (p.sample pins).attn = p.attn := by
  unfold Port.sample
  dsimp only
  split
  · rfl
  · split
    · rfl
    · split <;> rfl

theorem sampleLine_attnLevel (before : Nat) (s : State) : attnLevel (sampleLine before s) = attnLevel s := by
  unfold sampleLine
  split <;> rfl

theorem advance_attnLevel (n : Nat) (s : State) : attnLevel (advance n s) = attnLevel s := by simp [attnLevel]

/-- A REFCLK period moves neither ATTN nor what gives it its level. -/
theorem attnFollows_clockPeriod (s : State) (h : s.AttnFollows) : (clockPeriod s).AttnFollows := by
  have htime : (advance 1 (takePins s)).AttnFollows :=
    h.congr (by rw [advance_port]; rfl) (advance_attnLevel 1 (takePins s)) (advance_station_held (takePins s) 1)
  unfold clockPeriod
  dsimp only
  split
  · exact htime
  · refine htime.congr ?_ (sampleLine_attnLevel _ _) ?_
    · refine (Port.sample_attn _ _).trans ?_
      unfold sampleLine
      split <;> rfl
    · unfold sampleLine
      split <;> rfl

/-- Settles O57: commands and REFCLK periods keep ATTN at its level, and the queue and the choices do not touch it. -/
theorem stepKeepsAttn : Obligations.StepKeepsAttn := fun _ _ h ht =>
  step_keeps (P := State.AttnFollows) attnFollows_exec attnFollows_clockPeriod
    (fun _ _ h => h.congr rfl rfl rfl) (fun _ h => h.congr rfl rfl rfl) h ht

end Sys2Proof.Machine
end

section
/-! PROOFS. Transactions, the bits on the SPI pins, BYTE_COMPLETE by the phase and MALFORMED_REQUEST (O42, O43, O44,
O50). -/

namespace Sys2Proof.Machine

/-! ## Transactions (R171) -/

/-- Settles O42: each edge moves its pin, and the port's part of the event is taken whole. -/
theorem transactionsOpenAndClose : Obligations.TransactionsOpenAndClose := by
  intro s hh
  have hfall : (setCsn false s).station.held = false := hh
  have hrise : (setCsn true s).station.held = false := hh
  refine ⟨fun hseen => ?opens, congrArg Host.Outcome.next (live_running hrise csnRise)⟩
  show Host.Outcome.next (live (if s.port.csnSeen then csnFall else id) (setCsn false s)) = _
  rw [if_pos hseen, live_running hfall]
  rfl

/-! ## Bits (R172) -/

/-- A bit shifted in at the right moves the lower seven up. -/
theorem shiftLeft_or_ofBool (b : Byte) (bit : Bool) :
    (b <<< 1) ||| (BitVec.ofBool bit).setWidth 8 = b.extractLsb' 0 7 ++ BitVec.ofBool bit := by
  apply BitVec.eq_of_getLsbD_eq
  intro i hi
  show _ = (b.extractLsb' 0 7 ++ BitVec.ofBool bit : BitVec (7 + 1)).getLsbD i
  rw [BitVec.getLsbD_append]
  cases i with
  | zero => simp
  | succ i =>
    have hi8 : i < 8 := by omega
    simp [hi, show i < 7 by omega, BitVec.getLsbD_eq_getElem hi8]

theorem Port.shiftBit_eq (p : Port) (mosi : Bool) :
    p.shiftBit mosi =
      { p with
        shift := p.shift.extractLsb' 0 7 ++ BitVec.ofBool mosi
        bitCount := p.bitCount + 1
        byteDone := if p.bitCount = 7 then some (p.shift.extractLsb' 0 7 ++ BitVec.ofBool mosi) else p.byteDone } := by
  simp only [Port.shiftBit, shiftLeft_or_ofBool]

/-- The bit of the outgoing byte: a response's, or 0 where the byte is 00h (R172, R176). -/
theorem Port.misoBit_eq (p : Port) :
    p.misoBit =
      match p.phase, p.response with
      | .response, some r => (r.bytes.getD p.position 0).getLsbD (7 - p.bitCount.toNat)
      | _, _ => false := by
  rw [Port.misoBit, Port.outByte]
  cases p.phase with
  | response =>
    cases p.response with
    | none => exact BitVec.getLsbD_zero
    | some r => rfl
  | idle | request | trailing => exact BitVec.getLsbD_zero

/-- Whether the port ignores SCK and MOSI this period (R172, log 8). -/
theorem Port.ignores_iff (p : Port) (pins : Pins) :
    (pins.csn || p.csnSeen || p.phase == .idle) = true ↔ pins.csn = true ∨ p.csnSeen = true ∨ p.phase = .idle := by
  simp only [Bool.or_eq_true, beq_iff_eq, or_assoc]

theorem Port.sample_of_ignored {p : Port} {pins : Pins} (h : pins.csn = true ∨ p.csnSeen = true ∨ p.phase = .idle) :
    p.sample pins = { p with sckSeen := pins.sck } := if_pos ((Port.ignores_iff p pins).2 h)

/-- In an open transaction the level of SCK and the level last seen say which edge there is. -/
theorem Port.sample_of_open {p : Port} {pins : Pins} (hcsn : pins.csn = false) (hseen : p.csnSeen = false)
    (hphase : p.phase ≠ .idle) :
    p.sample pins =
      match p.sckSeen, pins.sck with
      | false, true => { p with sckSeen := true }.shiftBit pins.mosi
      | true, false => { p with sckSeen := false, miso := some p.misoBit }
      | _, _ => p := by
  have hopen : ¬ (pins.csn || p.csnSeen || p.phase == .idle) = true := by
    rw [Port.ignores_iff, hcsn, hseen]
    simp [hphase]
  refine (if_neg hopen).trans ?_
  obtain ⟨_, _, _, _, _, _, _, _, seen, _, _⟩ := p
  obtain ⟨_, sck, _, _, _⟩ := pins
  cases seen <;> cases sck <;> rfl

/-- Settles O43: an ignored period only sees SCK; an open transaction has a rising edge, a falling edge or none. -/
theorem spiShiftsBits : Obligations.SpiShiftsBits := by
  intro p pins
  refine ⟨fun hcsn hseen hphase => ?_, Port.sample_of_ignored⟩
  rw [Port.sample_of_open hcsn hseen hphase]
  refine ⟨fun hlow hhigh => ?rising, fun hhigh hlow => ?falling, fun hsame => ?none⟩
  case rising =>
    rw [hlow, hhigh]
    exact Port.shiftBit_eq _ _
  case falling =>
    rw [hhigh, hlow]
    exact congrArg (fun bit => ({ p with sckSeen := false, miso := some bit } : Port)) p.misoBit_eq
  case none =>
    rw [hsame]
    cases pins.sck <;> rfl

/-! ## Bytes by the phase (R172, R173, R176) -/

theorem exec_byteComplete_of_running (b : Byte) {s : State} (hh : s.station.held = false) :
    exec (.byteComplete b) s = .next (settleAttn (byteComplete b s)) :=
  congrArg Host.Outcome.next (live_running hh (byteComplete b))

theorem byteEnd_of_request {p : Port} (h : p.phase = .request) :
    p.byteEnd = { p with bitCount := 0, byteDone := none, miso := some false } := by
  rw [Port.byteEnd, outByte_request p h]
  rfl

theorem outByte_trailing {p : Port} (h : p.phase = .trailing) : p.outByte = 0 := by
  rw [Port.outByte, h]

theorem outByte_response {p : Port} {r : Response} (h : p.phase = .response) (hr : p.response = some r) :
    p.outByte = r.bytes.getD p.position 0 := by
  rw [Port.outByte, h, hr]

/-- A request byte is received, and the request taken if that completes it (R173). -/
theorem byteComplete_of_request (b : Byte) {s : State} (h : s.port.phase = .request) :
    let bytes := s.port.request ++ [b]
    byteComplete b s =
      if requestComplete bytes then takeRequest (parseRequest bytes) (received bytes s) else received bytes s := by
  intro bytes
  have hreceived : setPort { s.port.byteEnd with request := bytes } s = received bytes s := by
    rw [byteEnd_of_request h]
    rfl
  simp only [byteComplete, h, ← hreceived]
  rfl

/-- A response byte is out, and at the last the response is finished (R176). -/
theorem byteComplete_of_response (b : Byte) {s : State} {r : Response} (h : s.port.phase = .response)
    (hr : s.port.response = some r) :
    let s1 : State :=
      { s with
        port :=
          { s.port with
            position := s.port.position + 1, bitCount := 0, byteDone := none
            miso := some ((r.bytes.getD s.port.position 0).getLsbD 0) } }
    byteComplete b s = if r.bytes.length ≤ s.port.position + 1 then finishResponse r s1 else s1 := by
  simp only [byteComplete, h, responseByte, hr, Port.byteEnd, outByte_response h hr]
  rfl

/-- Settles O44: the four phases, with MISO at the last bit of the byte sent in each transaction (log 19). -/
theorem byteCompleteByPhase : Obligations.ByteCompleteByPhase := by
  intro b s hh
  rw [exec_byteComplete_of_running b hh]
  refine ⟨fun h => ?request, fun r h hr => ?response, fun h => ?trailing, fun h => ?idle⟩
  case request =>
    rw [byteComplete_of_request b h]
    exact ⟨fun hmore => by rw [hmore]; rfl, fun hdone => by rw [hdone]; rfl⟩
  case response =>
    rw [byteComplete_of_response b h hr]
    refine ⟨fun hmore => by rw [if_neg (Nat.not_le.2 hmore)], fun hlast => ?_⟩
    have hbyte : r.bytes.getD s.port.position 0 = r.bytes.getLastD 0 := by
      rw [List.getLastD_eq_getLast?, List.getLast?_eq_getElem?, ← hlast]
      rfl
    rw [if_pos hlast.ge, hbyte]
    rfl
  case trailing =>
    simp only [byteComplete, h, Port.byteEnd, outByte_trailing h]
    rfl
  case idle =>
    simp only [byteComplete, h]
    rfl

/-! ## MALFORMED_REQUEST (R174, R179) -/

/-- A malformed request is answered without a look at the station state, and nothing else follows (R174). -/
theorem takeRequest_malformed (bytes : List Byte) (s : State) :
    takeRequest (.malformed bytes) s = answered .badRequest [] .nothing s := rfl

/-- Settles O50: the bytes are received whole, and the take only answers. -/
theorem malformedRequestAnswered : Obligations.MalformedRequestAnswered := by
  intro s bytes hh hcomplete
  have hexec : exec (.malformedRequest bytes) s
      = .next (settleAttn (takeRequest (.malformed bytes) (received bytes s))) :=
    congrArg Host.Outcome.next (live_hostRequest_of_completes hh hcomplete)
  rw [hexec, takeRequest_malformed]

end Sys2Proof.Machine
end

section
/-! PROOFS. Requests as the host sends them and as the port reads them (O53). -/

namespace Sys2Proof.Machine

/-! ## Complete requests (R173) -/

theorem requestComplete_cons_iff (code p : Byte) (params : List Byte) :
    requestComplete (code :: p :: params) = true ↔
      (p.toNat ≤ 58 ∧ params.length = p.toNat) ∨ (58 < p.toNat ∧ params = []) := by
  rw [requestComplete]
  split
  next h => simp [h, Nat.not_le.2 h]
  next h => simp [h, Nat.not_lt.1 h]

/-! ## The requests of the table (R181) -/

/-- A request of the table: one of the eight, not a malformed one. -/
def Request.Listed (r : Request) : Prop := ∀ bytes, r ≠ .malformed bytes

/-- The length `n` is one that the table allows for the code (R181). -/
def LengthAllowed (code : Byte) (n : Nat) : Prop :=
  (code = 0x11 ∧ n = 13) ∨ (code = 0x12 ∧ 6 ≤ n) ∨ (code = 0x21 ∧ n = 0) ∨ (code = 0x22 ∧ n = 0)
    ∨ (code = 0x31 ∧ n = 0) ∨ (code = 0x32 ∧ n = 1) ∨ (code = 0x33 ∧ n = 1) ∨ (code = 0x3F ∧ n = 0)

/-- The code of a request of the table (R181). -/
def Request.code : Request → Byte
  | .configure _ => 0x11
  | .submit _ => 0x12
  | .collectMessage => 0x21
  | .collectReport => 0x22
  | .readStatus => 0x31
  | .readCounters _ => 0x32
  | .clearEvents _ => 0x33
  | .restart => 0x3F
  | .malformed _ => 0

/-- The parameters of a request of the table (R181). -/
def Request.parameters : Request → List Byte
  | .configure p => configureBytes p
  | .submit p => submitBytes p
  | .readCounters c => [c]
  | .clearEvents m => [m]
  | .collectMessage | .collectReport | .readStatus | .restart | .malformed _ => []

/-- A request of the table is sent as its code, the number of its parameters, and these (R173). -/
theorem bytes_of_listed {r : Request} (h : r.Listed) :
    r.bytes = r.code :: BitVec.ofNat 8 r.parameters.length :: r.parameters := by
  cases r with
  | malformed bytes => exact absurd rfl (h bytes)
  | submit p =>
    have hlen : (submitBytes p).length = 6 + p.payload.length := List.length_append
    rw [Request.parameters, hlen]
    rfl
  | _ => rfl

theorem parseParameters_of_listed {r : Request} (h : r.Listed) : parseParameters r.code r.parameters = some r := by
  cases r with
  | malformed bytes => exact absurd rfl (h bytes)
  | _ => rfl

theorem lengthAllowed_of_listed {r : Request} (h : r.Listed) : LengthAllowed r.code r.parameters.length := by
  cases r with
  | malformed bytes => exact absurd rfl (h bytes)
  | submit p => exact .inr (.inl ⟨rfl, by simp [Request.parameters, submitBytes]⟩)
  | _ => simp [LengthAllowed, Request.code, Request.parameters, configureBytes]

theorem exists_configureBytes {params : List Byte} (h : params.length = 13) : ∃ p, params = configureBytes p :=
  match params, h with
  | [b0, b1, b2, b3, b4, b5, b6, b7, b8, b9, b10, b11, b12], _ =>
    ⟨⟨b0, b1, b2, b3, b4, b5, b6, b7, b8, b9, b10, b11, b12⟩, rfl⟩

theorem exists_submitBytes {params : List Byte} (h : 6 ≤ params.length) : ∃ p, params = submitBytes p :=
  match params, h with
  | b0 :: b1 :: b2 :: b3 :: b4 :: b5 :: payload, _ => ⟨⟨b0, b1, b2, b3, b4, b5, payload⟩, rfl⟩

/-- Code and parameters of an allowed length are those of a request of the table. -/
theorem exists_listed_of_lengthAllowed {code : Byte} {params : List Byte} (h : LengthAllowed code params.length) :
    ∃ r : Request, r.Listed ∧ r.code = code ∧ r.parameters = params := by
  rcases h with ⟨rfl, h⟩ | ⟨rfl, h⟩ | ⟨rfl, h⟩ | ⟨rfl, h⟩ | ⟨rfl, h⟩ | ⟨rfl, h⟩ | ⟨rfl, h⟩ | ⟨rfl, h⟩
  · obtain ⟨p, rfl⟩ := exists_configureBytes h
    exact ⟨.configure p, nofun, rfl, rfl⟩
  · obtain ⟨p, rfl⟩ := exists_submitBytes h
    exact ⟨.submit p, nofun, rfl, rfl⟩
  · exact ⟨.collectMessage, nofun, rfl, (List.length_eq_zero_iff.1 h).symm⟩
  · exact ⟨.collectReport, nofun, rfl, (List.length_eq_zero_iff.1 h).symm⟩
  · exact ⟨.readStatus, nofun, rfl, (List.length_eq_zero_iff.1 h).symm⟩
  · obtain ⟨c, rfl⟩ := List.length_eq_one_iff.1 h
    exact ⟨.readCounters c, nofun, rfl, rfl⟩
  · obtain ⟨m, rfl⟩ := List.length_eq_one_iff.1 h
    exact ⟨.clearEvents m, nofun, rfl, rfl⟩
  · exact ⟨.restart, nofun, rfl, (List.length_eq_zero_iff.1 h).symm⟩

/-- What is read is a request of the table, with the code and the parameters it was read from. -/
theorem listed_of_parseParameters {code : Byte} {params : List Byte} {r : Request}
    (h : parseParameters code params = some r) : r.Listed ∧ r.code = code ∧ r.parameters = params := by
  unfold parseParameters at h
  repeat' split at h
  -- The arms that read nothing go; each of the eight others names its code.
  all_goals cases h
  all_goals
    subst_vars
    exact ⟨nofun, rfl, rfl⟩

/-- Parameters are read exactly when their number is one that the table allows for the code (R174, R181). -/
theorem parseParameters_isSome_iff (code : Byte) (params : List Byte) :
    (∃ r, parseParameters code params = some r) ↔ LengthAllowed code params.length := by
  constructor
  · rintro ⟨r, h⟩
    obtain ⟨hlisted, rfl, rfl⟩ := listed_of_parseParameters h
    exact lengthAllowed_of_listed hlisted
  · intro h
    obtain ⟨r, hlisted, rfl, rfl⟩ := exists_listed_of_lengthAllowed h
    exact ⟨r, parseParameters_of_listed hlisted⟩

/-! ## Reading a request (R174) -/

theorem parseRequest_of_framed {code p : Byte} {params : List Byte} (hp : p.toNat ≤ 58)
    (hlen : params.length = p.toNat) :
    parseRequest (code :: p :: params) = (parseParameters code params).getD (.malformed (code :: p :: params)) :=
  if_neg fun h => h.elim (Nat.not_lt.2 hp) (· hlen)

theorem parseRequest_of_long {code p : Byte} {params : List Byte} (hp : 58 < p.toNat) :
    parseRequest (code :: p :: params) = .malformed (code :: p :: params) := if_pos (.inl hp)

/-- Framed bytes are malformed exactly when the table does not allow their length for their code. -/
theorem parseRequest_malformed_iff {code p : Byte} {params : List Byte} (hp : p.toNat ≤ 58)
    (hlen : params.length = p.toNat) :
    parseRequest (code :: p :: params) = .malformed (code :: p :: params) ↔ ¬ LengthAllowed code params.length := by
  rw [parseRequest_of_framed hp hlen, ← parseParameters_isSome_iff]
  cases hparse : parseParameters code params with
  | none => simp
  | some r => simpa using (listed_of_parseParameters hparse).1 _

/-- The parameters of a request of the table number at most 58, a SUBMIT's with a payload of at most 52 (R173, R181). -/
theorem parameters_length_le {r : Request} (h : ∀ p, r = .submit p → p.payload.length ≤ 52) :
    r.parameters.length ≤ 58 := by
  cases r with
  | submit p =>
    have := h p rfl
    simp [Request.parameters, submitBytes]
    omega
  | _ => simp [Request.parameters, configureBytes]

/-- Settles O53: the table's requests are read back, and a length byte of the table is one of 0 to 58. -/
theorem requestCodesAgree : Obligations.RequestCodesAgree := by
  refine ⟨fun r hlisted hpayload => ?agree, fun code p params hcomplete => ?malformed, requestComplete_cons_iff⟩
  case agree =>
    have hle := parameters_length_le hpayload
    have hlen : (BitVec.ofNat 8 r.parameters.length).toNat = r.parameters.length :=
      Nat.mod_eq_of_lt (by omega)
    have hp : (BitVec.ofNat 8 r.parameters.length).toNat ≤ 58 := by rw [hlen]; exact hle
    rw [bytes_of_listed hlisted, requestComplete_cons_iff, parseRequest_of_framed hp hlen.symm,
      parseParameters_of_listed hlisted]
    exact ⟨.inl ⟨hp, hlen.symm⟩, rfl⟩
  case malformed =>
    have h0 : p = 0 ↔ p.toNat = 0 := BitVec.toNat_eq
    have h1 : p = 1 ↔ p.toNat = 1 := BitVec.toNat_eq
    have h13 : p = 13 ↔ p.toNat = 13 := BitVec.toNat_eq
    rw [h0, h1, h13]
    rcases (requestComplete_cons_iff code p params).1 hcomplete with ⟨hp, hlen⟩ | ⟨hp, -⟩
    · rw [parseRequest_malformed_iff hp hlen, LengthAllowed, hlen]
      simp only [hp, and_true]
    · rw [parseRequest_of_long hp]
      refine iff_of_true rfl ?_
      omega

end Sys2Proof.Machine
end

section
/-! PROOFS. Every command answers a next state, and leaves the model's own fields: the queue, the levels to come, the
counts of free choices and of free orders (O3). -/

namespace Sys2Proof.Machine

/-! ## The model's own fields (logs 1, 9, 4, 21) -/

/-- `t` has the queue, the levels to come and the counts of free choices and orders of `s`, but that SILENCE may have
chosen an order (log 21). -/
structure LeavesOwn (c : Instr) (s t : State) : Prop where
  pending : t.pending = s.pending
  inputs : t.inputs = s.inputs
  choiceCount : t.choiceCount = s.choiceCount
  orderCount : c ≠ .silence → t.orderCount = s.orderCount

namespace LeavesOwn

variable {c : Instr} {s t u : State}

theorem refl (c : Instr) (s : State) : LeavesOwn c s s := ⟨rfl, rfl, rfl, fun _ => rfl⟩

theorem trans (hst : LeavesOwn c s t) (htu : LeavesOwn c t u) : LeavesOwn c s u where
  pending := htu.pending.trans hst.pending
  inputs := htu.inputs.trans hst.inputs
  choiceCount := htu.choiceCount.trans hst.choiceCount
  orderCount hc := (htu.orderCount hc).trans (hst.orderCount hc)

/-- An effect that leaves the model's own fields leaves them as a command, taken whole or not at all (R170). -/
theorem live {f : State → State} (hf : LeavesOwn c s (f s)) : LeavesOwn c s (Machine.live f s) := by
  cases hh : s.station.held with
  | true =>
    rw [live_held hh]
    exact refl c s
  | false =>
    rw [live_running hh]
    exact ⟨hf.pending, hf.inputs, hf.choiceCount, hf.orderCount⟩

/-! ### Pins: their present levels are not those to come (log 9) -/

theorem setDemodIn (c : Instr) (level : Bool) (s : State) : LeavesOwn c s (setDemodIn level s) :=
  ⟨rfl, rfl, rfl, fun _ => rfl⟩

theorem setCsn (c : Instr) (level : Bool) (s : State) : LeavesOwn c s (setCsn level s) :=
  ⟨rfl, rfl, rfl, fun _ => rfl⟩

theorem setRstn (c : Instr) (level : Bool) (s : State) : LeavesOwn c s (setRstn level s) :=
  ⟨rfl, rfl, rfl, fun _ => rfl⟩

/-! ### Power-on and RSTn: a reset leaves the world at the pins (R170, log 9) -/

theorem resetPart (c : Instr) (s : State) : LeavesOwn c s (resetPart s) := ⟨rfl, rfl, rfl, fun _ => rfl⟩

theorem rstnReset (c : Instr) (s : State) : LeavesOwn c s (rstnReset s) := by
  unfold Machine.rstnReset
  split
  · exact setRstn c false s
  · exact (setRstn c false s).trans (resetPart c _)

theorem rstnRelease (c : Instr) (s : State) : LeavesOwn c s (rstnRelease s) := by
  cases hh : s.station.held with
  | true =>
    rw [rstnRelease_of_held hh]
    exact ⟨rfl, rfl, rfl, fun _ => rfl⟩
  | false =>
    rw [rstnRelease_of_running hh]
    exact ⟨rfl, rfl, rfl, fun _ => rfl⟩

/-! ### Effects whose frames hold all four fields -/

/-- CSn's fall opens a transaction, or does nothing where CSn was low (R171). -/
theorem csnFall (c : Instr) (opens : Bool) (s : State) : LeavesOwn c s ((if opens then csnFall else id) s) := by
  cases opens with
  | true => exact ⟨rfl, rfl, rfl, fun _ => rfl⟩
  | false => exact refl c s

/-- Every request, taken or not. -/
theorem hostRequest (c : Instr) (r : Request) (s : State) : LeavesOwn c s (hostRequest r s) where
  pending := hostRequest_pending s r
  inputs := hostRequest_inputs s r
  choiceCount := hostRequest_choiceCount s r
  orderCount _ := hostRequest_orderCount s r

/-- Every response clocked to its final byte. -/
theorem clockToEnd (c : Instr) (kind : Commit) (s : State) : LeavesOwn c s (clockToEnd kind s) where
  pending := clockToEnd_pending s kind
  inputs := clockToEnd_inputs s kind
  choiceCount := clockToEnd_choiceCount s kind
  orderCount _ := clockToEnd_orderCount s kind

/-- A silence may choose the order of a verdict and the checks of its instant, and leaves the rest (log 21). -/
theorem silence (s : State) : LeavesOwn .silence s (silence s) where
  pending := silence_pending s
  inputs := silence_inputs s
  choiceCount := silence_choiceCount s
  orderCount hc := absurd rfl hc

end LeavesOwn

/-! ## Every command -/

/-- No arm of `exec` faults or refuses. An edge moves its pin and then has its effect; every other command has its
effect alone, and the frame of each effect (Laws/Frames.lean) holds the model's own fields. -/
theorem exec_leavesOwn (c : Instr) (s : State) : ∃ t, exec c s = .next t ∧ LeavesOwn c s t := by
  cases c with
  | powerOn => exact ⟨_, rfl, .resetPart _ s⟩
  | rstnReset => exact ⟨_, rfl, .rstnReset _ s⟩
  | rstnRelease => exact ⟨_, rfl, .rstnRelease _ s⟩
  | risingEdge =>
    exact ⟨_, rfl, (LeavesOwn.setDemodIn _ true s).trans (.live ⟨by simp, by simp, by simp, fun _ => by simp⟩)⟩
  | fallingEdge n =>
    exact ⟨_, rfl, (LeavesOwn.setDemodIn _ false s).trans (.live ⟨by simp, by simp, by simp, fun _ => by simp⟩)⟩
  | csnFall => exact ⟨_, rfl, (LeavesOwn.setCsn _ false s).trans (.live (.csnFall _ s.port.csnSeen _))⟩
  | csnRise => exact ⟨_, rfl, (LeavesOwn.setCsn _ true s).trans (.live ⟨rfl, rfl, rfl, fun _ => rfl⟩)⟩
  | silence => exact ⟨_, rfl, .live (.silence s)⟩
  | configure _ | submit _ | collectMessage | collectReport | readStatus | readCounters _ | clearEvents _ | restart
  | malformedRequest _ => exact ⟨_, rfl, .live (.hostRequest _ _ s)⟩
  | collectMessageFinalByte | collectReportFinalByte | readCountersFinalByte =>
    exact ⟨_, rfl, .live (.clockToEnd _ _ s)⟩
  | blindingEnd | slotEnd | backoffCompletion | handOver | transmissionComplete | grant | decoderTake
  | decodeCompletion | entryDeadline _ | relayHoldOffExpiry _ | originHoldOffExpiry _ | echoDeadline _ | listenExpiry
  | byteComplete _ =>
    exact ⟨_, rfl, .live ⟨by simp, by simp, by simp, fun _ => by simp⟩⟩

/-- Settles O3: no arm faults or refuses, and the frames of the effects hold the model's own fields. -/
theorem everyCommandCompletes : Obligations.EveryCommandCompletes := by
  intro c s
  obtain ⟨t, ht, hown⟩ := exec_leavesOwn c s
  exact ⟨t, ht, hown.pending, hown.inputs, hown.choiceCount, hown.orderCount⟩

end Sys2Proof.Machine
end
